-- ==== Sys2Proof/Word.lean ====
section
/-!
DEFINITION. Sys2Proof/Word.lean: the word types of the core.
R7: a word has 32 bits. R70: an opcode value has 8 bits and an operand 24.
-/

namespace Sys2Proof

/-- A memory word or data register: 32 bits (R7), read as two's complement where it is signed (R11). -/
abbrev Word := BitVec 32

/-- An opcode value (R70, bits 31:24 of an instruction word). -/
abbrev OpcodeValue := BitVec 8

/-- The 24-bit unsigned operand of an instruction word (R70, bits 23:0). -/
abbrev Operand24 := BitVec 24

end Sys2Proof
end

