-- ==== Sys2Proof/Config.lean ====
section
/-!
DEFINITION. Sys2Proof/Config.lean: the parameters fixed when the core is built (R6, R8, R9) and the
one free value the spec leaves open (R121, U7).
-/

namespace Sys2Proof

/-- OPCODE_MAP (R8): entry `k` is the opcode value of the `k`-th mnemonic of R74's list, counted from 0. -/
abbrev OpcodeMap := List OpcodeValue

/-- How many instructions the closed opcode set has (R74). -/
abbrev OpcodeMap.size : Nat := 51

/-- The default map of R74 (92_eei_decisions.md D1): the values 0 to 50 in the list's order. -/
def OpcodeMap.default : OpcodeMap := (List.range OpcodeMap.size).map (BitVec.ofNat 8)

/-- The largest memory size R6 admits. -/
abbrev Config.maxMemorySize : Nat := 2 ^ 31 - 1

/-- The two build-time parameters of the core (R6, R8; R9: there is no other). -/
structure Config where
  /-- `N`, the memory size in words (R6). -/
  n : Nat
  /-- OPCODE_MAP (R8). -/
  opcodeMap : OpcodeMap
  deriving DecidableEq, Repr

/-- The configuration of `State.reset`: every address the spec's bound on `N` allows (DESIGN CHOICE,
notes/assumptions/1.md) and the default map (notes/assumptions/2.md). -/
def Config.default : Config := { n := Config.maxMemorySize, opcodeMap := OpcodeMap.default }

/-- The text of the `k`-th trace event. R121 leaves the text open ("a model treats it as a free value, and no
claim may read it"): the constant has no body, so nothing can be proved of it (notes/assumptions/5.md). -/
opaque Config.traceText : Nat → String

end Sys2Proof
end

