-- ==== Sys2Proof/Syntax.lean ====
section
/-!
DEFINITION. Sys2Proof/Syntax.lean: the instructions, one constructor for each row of spec/opcode_table.json (R74).
Every constructor carries the 24-bit operand that R73's decoder yields beside the opcode, also where no rule
reads it (R76). BREAK's constructor is `brk`, because `break` is a word of Lean's own.
-/

namespace Sys2Proof

/-- The closed set of 51 instructions, in the order of R74. -/
inductive Instr where
  /-- NOP: 40_cycle_engine.md R116, addressing class None. -/
  | nop (x : Operand24)
  /-- HALT: 40_cycle_engine.md R118, addressing class None. -/
  | halt (x : Operand24)
  /-- BREAK: 40_cycle_engine.md R119, addressing class None. -/
  | brk (x : Operand24)
  /-- LOAD: 41_data_alu.md R160, addressing class Direct. -/
  | load (x : Operand24)
  /-- LOADI: 41_data_alu.md R161, addressing class Indirect. -/
  | loadi (x : Operand24)
  /-- LOADM: 41_data_alu.md R162, addressing class Immediate. -/
  | loadm (x : Operand24)
  /-- STORE: 41_data_alu.md R170, addressing class Direct. -/
  | store (x : Operand24)
  /-- STOREI: 41_data_alu.md R171, addressing class Indirect. -/
  | storei (x : Operand24)
  /-- ADD: 41_data_alu.md R175, addressing class Direct. -/
  | add (x : Operand24)
  /-- ADDI: 41_data_alu.md R176, addressing class Indirect. -/
  | addi (x : Operand24)
  /-- ADDM: 41_data_alu.md R177, addressing class Immediate. -/
  | addm (x : Operand24)
  /-- SUB: 41_data_alu.md R178, addressing class Direct. -/
  | sub (x : Operand24)
  /-- SUBI: 41_data_alu.md R179, addressing class Indirect. -/
  | subi (x : Operand24)
  /-- SUBM: 41_data_alu.md R180, addressing class Immediate. -/
  | subm (x : Operand24)
  /-- MULT: 41_data_alu.md R181, addressing class Direct. -/
  | mult (x : Operand24)
  /-- MULTI: 41_data_alu.md R182, addressing class Indirect. -/
  | multi (x : Operand24)
  /-- MULTM: 41_data_alu.md R183, addressing class Immediate. -/
  | multm (x : Operand24)
  /-- DIV: 41_data_alu.md R184, addressing class Direct. -/
  | div (x : Operand24)
  /-- DIVI: 41_data_alu.md R185, addressing class Indirect. -/
  | divi (x : Operand24)
  /-- DIVM: 41_data_alu.md R186, addressing class Immediate. -/
  | divm (x : Operand24)
  /-- MOD: 41_data_alu.md R187, addressing class Direct. -/
  | mod (x : Operand24)
  /-- MODI: 41_data_alu.md R188, addressing class Indirect. -/
  | modi (x : Operand24)
  /-- MODM: 41_data_alu.md R189, addressing class Immediate. -/
  | modm (x : Operand24)
  /-- AND: 41_data_alu.md R190, addressing class Direct. -/
  | and (x : Operand24)
  /-- ANDI: 41_data_alu.md R191, addressing class Indirect. -/
  | andi (x : Operand24)
  /-- ANDM: 41_data_alu.md R192, addressing class Immediate. -/
  | andm (x : Operand24)
  /-- OR: 41_data_alu.md R193, addressing class Direct. -/
  | or (x : Operand24)
  /-- ORI: 41_data_alu.md R194, addressing class Indirect. -/
  | ori (x : Operand24)
  /-- ORM: 41_data_alu.md R195, addressing class Immediate. -/
  | orm (x : Operand24)
  /-- NOT: 41_data_alu.md R196, addressing class None. -/
  | not (x : Operand24)
  /-- JMP: 42_control_flow.md R205, addressing class Direct. -/
  | jmp (x : Operand24)
  /-- JMPI: 42_control_flow.md R206, addressing class Indirect. -/
  | jmpi (x : Operand24)
  /-- JMPM: 42_control_flow.md R207, addressing class Immediate. -/
  | jmpm (x : Operand24)
  /-- JMPEQ: 42_control_flow.md R210, addressing class Direct. -/
  | jmpeq (x : Operand24)
  /-- JMPEQI: 42_control_flow.md R211, addressing class Indirect. -/
  | jmpeqi (x : Operand24)
  /-- JMPEQM: 42_control_flow.md R212, addressing class Immediate. -/
  | jmpeqm (x : Operand24)
  /-- JMPNE: 42_control_flow.md R213, addressing class Direct. -/
  | jmpne (x : Operand24)
  /-- JMPNEI: 42_control_flow.md R214, addressing class Indirect. -/
  | jmpnei (x : Operand24)
  /-- JMPNEM: 42_control_flow.md R215, addressing class Immediate. -/
  | jmpnem (x : Operand24)
  /-- JMPGT: 42_control_flow.md R216, addressing class Direct. -/
  | jmpgt (x : Operand24)
  /-- JMPGTI: 42_control_flow.md R217, addressing class Indirect. -/
  | jmpgti (x : Operand24)
  /-- JMPGTM: 42_control_flow.md R218, addressing class Immediate. -/
  | jmpgtm (x : Operand24)
  /-- JMPLT: 42_control_flow.md R219, addressing class Direct. -/
  | jmplt (x : Operand24)
  /-- JMPLTI: 42_control_flow.md R220, addressing class Indirect. -/
  | jmplti (x : Operand24)
  /-- JMPLTM: 42_control_flow.md R221, addressing class Immediate. -/
  | jmpltm (x : Operand24)
  /-- JMPGE: 42_control_flow.md R222, addressing class Direct. -/
  | jmpge (x : Operand24)
  /-- JMPGEI: 42_control_flow.md R223, addressing class Indirect. -/
  | jmpgei (x : Operand24)
  /-- JMPGEM: 42_control_flow.md R224, addressing class Immediate. -/
  | jmpgem (x : Operand24)
  /-- JMPLE: 42_control_flow.md R225, addressing class Direct. -/
  | jmple (x : Operand24)
  /-- JMPLEI: 42_control_flow.md R226, addressing class Indirect. -/
  | jmplei (x : Operand24)
  /-- JMPLEM: 42_control_flow.md R227, addressing class Immediate. -/
  | jmplem (x : Operand24)
  deriving DecidableEq, Repr

end Sys2Proof
end

