-- ==== Sys2Proof/Decode.lean ====
section
/-!
DEFINITION. Sys2Proof/Decode.lean: the instruction codec (R70 to R73, R75, R81). `decodeWith` is total and never
refuses: an opcode value outside the map's image is NOP (R73, R75). The encoder stands after it; the core itself has
none (R81, 90_conflicts.md C5).
-/

namespace Sys2Proof

/-- `opc = w[31:24]` (R71). -/
def opcField (w : Word) : OpcodeValue := w.extractLsb' 24 8

/-- `operand24 = w[23:0]` (R72). -/
def operandField (w : Word) : Operand24 := w.extractLsb' 0 24

/-- The mnemonics of R74 in the list's order, each as its constructor. -/
def catalogue : List (Operand24 → Instr) :=
  [.nop, .halt, .brk, .load, .loadi, .loadm, .store, .storei, .add] ++
  [.addi, .addm, .sub, .subi, .subm, .mult, .multi, .multm, .div] ++
  [.divi, .divm, .mod, .modi, .modm, .and, .andi, .andm, .or] ++
  [.ori, .orm, .not, .jmp, .jmpi, .jmpm, .jmpeq, .jmpeqi, .jmpeqm] ++
  [.jmpne, .jmpnei, .jmpnem, .jmpgt, .jmpgti, .jmpgtm, .jmplt, .jmplti, .jmpltm] ++
  [.jmpge, .jmpgei, .jmpgem, .jmple, .jmplei, .jmplem]

/-- `decode(w)` (R73) under an opcode map: the mnemonic whose value is `w[31:24]`, and NOP where there is none. -/
def decodeWith (m : OpcodeMap) (w : Word) : Instr :=
  match (m.idxOf? (opcField w)).bind (catalogue[·]?) with
  | some c => c (operandField w)
  | none => .nop (operandField w)

/-- `decode(w)` under the default map. -/
def decode (w : Word) : Instr := decodeWith OpcodeMap.default w

/-- The instruction the decoder reads, under the default map, from the `nbits` low bits of `w`. An instruction is
one 32-bit word (R70, R80); memory holds words, so no byte order comes in (R54). The decoder never refuses (R73). -/
def decodeTableWord (nbits w : Nat) : Option Instr :=
  some (decode (BitVec.ofNat 32 (w % 2 ^ nbits)))

/-- The place of an instruction's mnemonic in R74's list. -/
def Instr.index : Instr → Nat
  | .nop _ => 0
  | .halt _ => 1
  | .brk _ => 2
  | .load _ => 3
  | .loadi _ => 4
  | .loadm _ => 5
  | .store _ => 6
  | .storei _ => 7
  | .add _ => 8
  | .addi _ => 9
  | .addm _ => 10
  | .sub _ => 11
  | .subi _ => 12
  | .subm _ => 13
  | .mult _ => 14
  | .multi _ => 15
  | .multm _ => 16
  | .div _ => 17
  | .divi _ => 18
  | .divm _ => 19
  | .mod _ => 20
  | .modi _ => 21
  | .modm _ => 22
  | .and _ => 23
  | .andi _ => 24
  | .andm _ => 25
  | .or _ => 26
  | .ori _ => 27
  | .orm _ => 28
  | .not _ => 29
  | .jmp _ => 30
  | .jmpi _ => 31
  | .jmpm _ => 32
  | .jmpeq _ => 33
  | .jmpeqi _ => 34
  | .jmpeqm _ => 35
  | .jmpne _ => 36
  | .jmpnei _ => 37
  | .jmpnem _ => 38
  | .jmpgt _ => 39
  | .jmpgti _ => 40
  | .jmpgtm _ => 41
  | .jmplt _ => 42
  | .jmplti _ => 43
  | .jmpltm _ => 44
  | .jmpge _ => 45
  | .jmpgei _ => 46
  | .jmpgem _ => 47
  | .jmple _ => 48
  | .jmplei _ => 49
  | .jmplem _ => 50

/-- The 24-bit operand an instruction carries (R72). -/
def Instr.operand : Instr → Operand24
  | .nop x | .halt x | .brk x | .load x | .loadi x | .loadm x
  | .store x | .storei x | .add x | .addi x | .addm x | .sub x
  | .subi x | .subm x | .mult x | .multi x | .multm x | .div x
  | .divi x | .divm x | .mod x | .modi x | .modm x | .and x
  | .andi x | .andm x | .or x | .ori x | .orm x | .not x
  | .jmp x | .jmpi x | .jmpm x | .jmpeq x | .jmpeqi x | .jmpeqm x
  | .jmpne x | .jmpnei x | .jmpnem x | .jmpgt x | .jmpgti x | .jmpgtm x
  | .jmplt x | .jmplti x | .jmpltm x | .jmpge x | .jmpgei x | .jmpgem x
  | .jmple x | .jmplei x | .jmplem x => x

/-- The opcode value the map gives an instruction (R8). A map that is too short gives 0; `Config.wf` rules it out. -/
def opcodeValue (m : OpcodeMap) (i : Instr) : OpcodeValue := m.getD i.index 0

/-- `enc(op, v)` (R81): the opcode value above the 24-bit operand. -/
def encodeWith (m : OpcodeMap) (i : Instr) : Word := opcodeValue m i ++ i.operand

/-- `enc(op, v)` under the default map. -/
def encode (i : Instr) : Word := encodeWith OpcodeMap.default i

end Sys2Proof
end

