-- ==== Sys2Proof/WellFormed.lean ====
section
/-!
DEFINITION. Sys2Proof/WellFormed.lean: which configurations a core can be built with (R6, R8, R354). Every term of
`Instr` is well formed by its type: its operand is a 24-bit number, and every 24-bit number is a legal operand (R72).
-/

namespace Sys2Proof

/-- Why a configuration is refused when the core is built. -/
inductive ConfigProblem where
  /-- `N = 0` (R354: "a configuration error to reject"). -/
  | memorySizeZero
  /-- `N` above the bound of R6. -/
  | memorySizeTooLarge
  /-- The map does not give every one of the 51 mnemonics exactly one value (R8). -/
  | opcodeMapSize
  /-- Two mnemonics share a value, so the map is not injective (R8). -/
  | opcodeMapNotInjective
  deriving DecidableEq, Repr

/-- The first thing wrong with a configuration, if anything is. -/
def Config.problem (c : Config) : Option ConfigProblem :=
  if c.n = 0 then some .memorySizeZero
  else if Config.maxMemorySize < c.n then some .memorySizeTooLarge
  else if c.opcodeMap.length ≠ OpcodeMap.size then some .opcodeMapSize
  else if ¬ c.opcodeMap.Nodup then some .opcodeMapNotInjective
  else none

/-- An opcode map gives each of the 51 mnemonics a value of its own (R8). -/
abbrev OpcodeMap.wf (m : OpcodeMap) : Prop := m.length = OpcodeMap.size ∧ m.Nodup

/-- A core can be built with the configuration: `1 ≤ N ≤ 2^31 - 1` (R6) and an injective opcode map (R8). -/
abbrev Config.wf (c : Config) : Prop := 1 ≤ c.n ∧ c.n ≤ Config.maxMemorySize ∧ c.opcodeMap.wf

end Sys2Proof
end

