-- ==== Sys2Proof/Machine/State.lean ====
section
/-!
DEFINITION. Sys2Proof/Machine/State.lean: the state of the core (10_state.md R20), what a call of `step()` or of a host
operation hands to the outside (R114, R122), the reasons a step stops, and the state after `reset()` (R34, R350).
-/

namespace Sys2Proof.Machine

/-- The cycle phase PH (R28). `error` is the error phase of the divide-by-zero fault (R302). -/
inductive Phase where
  | fetch
  | indirect
  | execute
  | halt
  | error
  deriving DecidableEq, Repr

/-- The fault record FLT (R29, R301). -/
inductive FaultRecord where
  | noFault
  | divideByZero
  deriving DecidableEq, Repr

/-- What a call of `step()` returns (R122). -/
inductive StepResult where
  | ok
  | errorDivideByZero
  deriving DecidableEq, Repr

/-- One word of memory at an address: the word is the addressable unit (R50; notes/assumptions/3.md). -/
abbrev Cell := Nat × Word

/-- The memory M (R32) as the words that differ from what an unlisted address reads as, addresses strictly rising. -/
abbrev Memory := List Cell

/-- The batch of notifications the most recent call of `step()` or of a host operation sent to the Observer Port, and
the value that call returned (R114, R122). Within one call each kind of notification, and for RegChanged each
register, occurs at most once, and the order is open (R115); so the batch is held as a record without an order
(notes/assumptions/4.md). -/
structure Output where
  /-- RegChanged(accumulator, v) -/
  acc : Option Word := none
  /-- RegChanged(valueRegister, v) -/
  vr : Option Word := none
  /-- RegChanged(instructionRegister, v) -/
  ir : Option Word := none
  /-- RegChanged(programCounter, v) -/
  pc : Option Nat := none
  /-- RegChanged(addressRegister, v) -/
  ar : Option Nat := none
  /-- RegChanged(jmpFlag, v) -/
  jf : Option Bool := none
  /-- MemChanged(s): the snapshot of M after the write -/
  mem : Option Memory := none
  /-- PhaseChanged(p) -/
  phase : Option Phase := none
  /-- Trace(t): the number of the free draw; the text is `Config.traceText` of it (R121) -/
  trace : Option Nat := none
  /-- Halted(Terminal) -/
  haltedTerminal : Bool := false
  /-- Halted(Break) -/
  haltedBreak : Bool := false
  /-- the value returned by the call -/
  result : StepResult := .ok
  deriving DecidableEq, Repr

/-- No notification, and the result `Ok`. -/
def Output.silent : Output := {}

/-- The state of the core: the tuple of R20, the build-time parameters, and two fields that are the model's own
(`out` and `traceDraws`). -/
structure State where
  /-- N and OPCODE_MAP, fixed when the core is built (R6, R8); no micro-step and no host operation changes them. -/
  cfg : Config
  /-- ACC, the accumulator (R21). -/
  acc : Word
  /-- VR, the valueRegister (R22). -/
  vr : Word
  /-- IR, the instructionRegister (R23). -/
  ir : Word
  /-- PC, the programCounter: a number in [0, N) (R24). -/
  pc : Nat
  /-- AR, the addressRegister: a number in [0, N) (R25). -/
  ar : Nat
  /-- JF, the jmpFlag (R26). -/
  jf : Bool
  /-- UC, the microCounter: 0 or 1 (R27; notes/assumptions/6.md). -/
  uc : Fin 2
  /-- PH, the cycle phase (R28). -/
  ph : Phase
  /-- FLT, the fault record (R29). -/
  flt : FaultRecord
  /-- M, the memory array (R32). -/
  mem : Memory
  /-- THE MODEL'S OWN: what the most recent call sent to the Observer Port and returned. -/
  out : Output
  /-- THE MODEL'S OWN: how many free trace texts have been drawn (R121; notes/assumptions/5.md). -/
  traceDraws : Nat
  deriving DecidableEq, Repr

/-- Why the machine stops with a fault. The divide-by-zero fault of the spec is NOT one of these: its entry is
described (R302), so the micro-step that raises it answers a next state. -/
inductive Fault where
  /-- Raised by a memory access whose address is N or more. R51: AR is always in [0, N), so no run from reset raises
  it, and the spec has no such case. SAFE: the model stops where the spec's states do not reach. -/
  | noSuchAddress (a : Nat)
  deriving DecidableEq, Repr

/-- Why a request is refused. -/
inductive Refusal where
  /-- Raised by an arm of `exec` whose instruction has no meaning yet (no arm is left so). SAFE. -/
  | notModelled (mnemonic : String)
  /-- Raised by a micro-step for a (PH, UC) pair that R123 calls unreachable ("A model may refuse a step from an
  unreachable pair"; U14). SAFE: no run from reset reaches one. -/
  | unreachableMicroStep
  /-- Raised by `construct` for a configuration no core is built with (R354, R6, R8). SAFE. -/
  | badConfig (p : ConfigProblem)
  /-- Raised by `loadMemory` for an image of another length than N (R352, U11). SAFE: the state does not change. -/
  | imageLength (given : Nat)
  deriving DecidableEq, Repr

/-- The outcome of a micro-step or a host operation. -/
abbrev Result := Host.Outcome State Fault Refusal

/-- The batch `reset()` emits (R350): RegChanged for the six reported registers, MemChanged and PhaseChanged(FETCH). -/
def Output.ofReset : Output :=
  { acc := some 0, vr := some 0, ir := some 0, pc := some 0, ar := some 0, jf := some false,
    mem := some [], phase := some .fetch }

/-- The reset state of R34 for a given configuration. `draws` is how many free trace texts have been drawn before. -/
def State.resetOf (cfg : Config) (draws : Nat) : State :=
  { cfg := cfg, acc := 0, vr := 0, ir := 0, pc := 0, ar := 0, jf := false, uc := 0, ph := .fetch, flt := .noFault,
    mem := [], out := Output.ofReset, traceDraws := draws }

/-- The core right after `reset()` (R34, R350), for the default configuration. -/
def State.reset : State := State.resetOf Config.default 0

end Sys2Proof.Machine
end

