-- ==== Sys2Proof/Machine/Arith.lean ====
section
/-!
DEFINITION. Sys2Proof/Machine/Arith.lean: the value functions of R12 and the arithmetic laws R150 to R153: exact integer
arithmetic first, narrowed at the end.
-/

namespace Sys2Proof.Machine

/-- `zext_32(v)` (R12): widen the 24-bit operand with zero bits. -/
def zext32 (x : Operand24) : Word := x.setWidth 32

/-- `wrap32(x)` (R12): the 32-bit value congruent to `x` modulo 2^32. -/
def wrap32 (x : Int) : Word := BitVec.ofInt 32 x

/-- `w mod N` for a memory word, which is signed (R12, R53): the Euclidean remainder, in [0, N)
(notes/assumptions/14.md). -/
def wordMod (w : Word) (n : Nat) : Nat := (w.toInt % (n : Int)).toNat

/-- `operand24 mod N` (R12, R79). -/
def operandMod (x : Operand24) (n : Nat) : Nat := x.toNat % n

/-- `add(a, b)` (R150). -/
def aluAdd (a b : Word) : Word := wrap32 (a.toInt + b.toInt)

/-- `sub(a, b)` (R150). -/
def aluSub (a b : Word) : Word := wrap32 (a.toInt - b.toInt)

/-- `mul(a, b)` (R150). -/
def aluMul (a b : Word) : Word := wrap32 (a.toInt * b.toInt)

/-- `div(a, b)` (R151): the quotient truncated toward zero, wrapped (notes/assumptions/15.md). -/
def aluDiv (a b : Word) : Word := wrap32 (a.toInt.tdiv b.toInt)

/-- `mod(a, b)` (R152): the remainder of the truncated quotient (notes/assumptions/15.md). -/
def aluMod (a b : Word) : Word := wrap32 (a.toInt - b.toInt * a.toInt.tdiv b.toInt)

/-- `and(a, b)` (R153), bit by bit (notes/assumptions/16.md). -/
def aluAnd (a b : Word) : Word := a &&& b

/-- `or(a, b)` (R153), bit by bit (notes/assumptions/16.md). -/
def aluOr (a b : Word) : Word := a ||| b

/-- `not(a)` (R153). -/
def aluNot (a : Word) : Word := ~~~ a

end Sys2Proof.Machine
end

