-- ==== Sys2Proof/Machine/Ops.lean ====
section
/-!
DEFINITION. Sys2Proof/Machine/Ops.lean: the named operations every micro-step is written with: reading and writing
memory (20_memory.md), writing a register with its notification (R114, R115), changing the phase (R102), AdvancePC()
(R111), and entering the divide-by-zero fault (R302), from which the core has no return (R303).
-/

namespace Sys2Proof.Machine

/-- What a word that nothing has written reads as: 0, the value reset gives every word (R34). -/
def Memory.unlisted : Word := 0

/-- The word at an address. -/
def Memory.read : Memory → Nat → Word
  | [], _ => Memory.unlisted
  | (b, v) :: m, a => if a = b then v else Memory.read m a

/-- Put a word at the head of a list of cells, unless it is what an unlisted address reads as. -/
def Memory.consCell (a : Nat) (v : Word) (m : Memory) : Memory := if v = Memory.unlisted then m else (a, v) :: m

/-- Write one word, keeping the canonical form. -/
def Memory.write : Memory → Nat → Word → Memory
  | [], a, v => Memory.consCell a v []
  | (b, w) :: m, a, v =>
    if a < b then Memory.consCell a v ((b, w) :: m)
    else if a = b then Memory.consCell a v m
    else (b, w) :: Memory.write m a v

/-- The words of an image at the addresses from `a` on, in canonical form (R352). -/
def Memory.ofWords : Nat → List Word → Memory
  | _, [] => []
  | a, w :: ws => Memory.consCell a w (Memory.ofWords (a + 1) ws)

/-- The canonical form: addresses strictly rising, and no cell equal to what an unlisted address reads as. -/
abbrev Memory.wf (m : Memory) : Prop :=
  List.Pairwise (fun c d : Cell => c.1 < d.1) m ∧ ∀ c ∈ m, c.2 ≠ Memory.unlisted

/-- Every listed address exists (R50: addresses are integers in [0, N)). -/
abbrev Memory.bounded (m : Memory) (n : Nat) : Prop := ∀ c ∈ m, c.1 < n

/-- `MemRead(a, 1)` (R51), handed to what the micro-step does with the word. -/
def memRead (s : State) (a : Nat) (k : Word → Result) : Result :=
  if a < s.cfg.n then k (s.mem.read a) else .fault (.noSuchAddress a)

/-- The state after `MemWrite(a, 1, v)` and its MemChanged notification (R52). -/
def State.setWord (a : Nat) (v : Word) (s : State) : State :=
  { s with mem := s.mem.write a v, out := { s.out with mem := some (s.mem.write a v) } }

/-- `MemWrite(a, 1, v)` (R52), and what the micro-step does after it. -/
def memWrite (s : State) (a : Nat) (v : Word) (k : State → Result) : Result :=
  if a < s.cfg.n then k (s.setWord a v) else .fault (.noSuchAddress a)

/-- `ACC <- v` and RegChanged(accumulator, v). -/
def State.setAcc (v : Word) (s : State) : State := { s with acc := v, out := { s.out with acc := some v } }

/-- `VR <- v` and RegChanged(valueRegister, v). -/
def State.setVr (v : Word) (s : State) : State := { s with vr := v, out := { s.out with vr := some v } }

/-- `IR <- v` and RegChanged(instructionRegister, v). -/
def State.setIr (v : Word) (s : State) : State := { s with ir := v, out := { s.out with ir := some v } }

/-- `PC <- v` and RegChanged(programCounter, v). -/
def State.setPc (v : Nat) (s : State) : State := { s with pc := v, out := { s.out with pc := some v } }

/-- `AR <- v` and RegChanged(addressRegister, v). -/
def State.setAr (v : Nat) (s : State) : State := { s with ar := v, out := { s.out with ar := some v } }

/-- `JF <- v` and RegChanged(jmpFlag, v). -/
def State.setJf (v : Bool) (s : State) : State := { s with jf := v, out := { s.out with jf := some v } }

/-- `UC <- 1`: the micro-step stays in its phase (R102, R27). -/
def State.stayInPhase (s : State) : State := { s with uc := 1 }

/-- `PH <- p ; UC <- 0` and PhaseChanged(p), for a phase other than ERROR (R102). -/
def State.enter (p : Phase) (s : State) : State := { s with ph := p, uc := 0, out := { s.out with phase := some p } }

/-- Halted(Terminal) (R114). -/
def State.notifyTerminal (s : State) : State := { s with out := { s.out with haltedTerminal := true } }

/-- Halted(Break) (R114, R119). -/
def State.notifyBreak (s : State) : State := { s with out := { s.out with haltedBreak := true } }

/-- Entering HALT, from the HALT instruction (R118) or past the last address (R111). -/
def State.enterHalt (s : State) : State := (s.enter .halt).notifyTerminal

/-- `AdvancePC()` (R111): to the next address, or to HALT from the last one. -/
def State.advancePC (s : State) : State :=
  if s.pc + 1 < s.cfg.n then (s.setPc (s.pc + 1)).enter .fetch else s.enterHalt

/-- `raise DivideByZero(op, PC)` (R302): FLT, PH and UC are written, no PhaseChanged is emitted (R102), the call returns
`Error(DivideByZero)`, and everything else keeps its value. There is no vector, no saved state and no return (R303). -/
def State.raiseDivideByZero (s : State) : State :=
  { s with flt := .divideByZero, ph := .error, uc := 0, out := { s.out with result := .errorDivideByZero } }

/-- Open a micro-step of FETCH, INDIRECT or EXECUTE: its batch holds exactly one Trace, with a text drawn anew (R121),
and no other notification yet. -/
def State.openMicroStep (s : State) : State :=
  { s with out := { Output.silent with trace := some s.traceDraws }, traceDraws := s.traceDraws + 1 }

/-- A step in HALT or ERROR: no state of the core is written and nothing is emitted; only the returned value is the
call's own (R112, R113). -/
def State.idleStep (r : StepResult) (s : State) : State := { s with out := { Output.silent with result := r } }

/-- An EXECUTE of one micro-step: there is no block for UC = 1 (R120, R123). -/
def singleMicroStep (s : State) (body : Result) : Result :=
  if s.uc = 0 then body else .refused .unreachableMicroStep

/-- An EXECUTE of two micro-steps, selected by UC (R109). -/
def twoMicroSteps (s : State) (first second : Result) : Result := if s.uc = 0 then first else second

end Sys2Proof.Machine
end

