-- ==== Sys2Proof/Machine/Flags.lean ====
section
/-!
DEFINITION. Sys2Proof/Machine/Flags.lean: the core's one flag, JF (R26): the six predicates of R201 and the test
micro-step that writes it (R202). No arithmetic writes a flag (R26, R150).
-/

namespace Sys2Proof.Machine

/-- The condition of a conditional jump (R201). -/
inductive Cond where
  | eq
  | ne
  | gt
  | lt
  | ge
  | le
  deriving DecidableEq, Repr

/-- `pred_cc(ACC)`: the signed accumulator against zero (R201). -/
def pred : Cond → Word → Bool
  | .eq, a => decide (a.toInt = 0)
  | .ne, a => decide (a.toInt ≠ 0)
  | .gt, a => decide (0 < a.toInt)
  | .lt, a => decide (a.toInt < 0)
  | .ge, a => decide (0 ≤ a.toInt)
  | .le, a => decide (a.toInt ≤ 0)

/-- The test micro-step of every conditional jump (R202). -/
def condTest (cc : Cond) (s : State) : Result := .next (s.setJf (pred cc s.acc)).stayInPhase

end Sys2Proof.Machine
end

