-- ==== Sys2Proof/Machine/Operands.lean ====
section
/-!
DEFINITION. Sys2Proof/Machine/Operands.lean: the addressing classes (R78), the operand forms they give an instruction in
EXECUTE (R154, R200), and the groups of instructions that share their micro-steps (R120).
-/

namespace Sys2Proof.Machine

/-- The addressing class of an instruction (R78, R17). -/
inductive AddrClass where
  | direct
  | indirect
  | immediate
  | none
  deriving DecidableEq, Repr

/-- `cls(op)` (R78; the class column of R74). An unknown opcode decodes as NOP, of class None. -/
def addrClass : Instr → AddrClass
  | .load _ | .store _ | .add _ | .sub _ | .mult _ | .div _ | .mod _ | .and _
  | .or _ | .jmp _ | .jmpeq _ | .jmpne _ | .jmpgt _ | .jmplt _ | .jmpge _ | .jmple _ => .direct
  | .loadi _ | .storei _ | .addi _ | .subi _ | .multi _ | .divi _ | .modi _ | .andi _
  | .ori _ | .jmpi _ | .jmpeqi _ | .jmpnei _ | .jmpgti _ | .jmplti _ | .jmpgei _ | .jmplei _ => .indirect
  | .loadm _ | .addm _ | .subm _ | .multm _ | .divm _ | .modm _ | .andm _ | .orm _
  | .jmpm _ | .jmpeqm _ | .jmpnem _ | .jmpgtm _ | .jmpltm _ | .jmpgem _ | .jmplem _ => .immediate
  | .nop _ | .halt _ | .brk _ | .not _ => .none

/-- The groups of R120's table whose EXECUTE has the same micro-steps. -/
inductive ExecGroup where
  /-- NOP, HALT, BREAK, NOT, LOAD and STORE forms, JMP forms: one micro-step. -/
  | single
  /-- ADD, SUB, MULT, AND, OR forms: the operand and combine micro-steps (R154, R155). -/
  | alu
  /-- DIV and MOD forms: the same, with the divide-by-zero check (R156). -/
  | divide
  /-- The conditional jumps: the test and resolution micro-steps (R202, R203). -/
  | condJump
  deriving DecidableEq, Repr

/-- The group of each instruction (R120). -/
def execGroup : Instr → ExecGroup
  | .nop _ | .halt _ | .brk _ | .load _ | .loadi _ | .loadm _ | .store _ | .storei _
  | .not _ | .jmp _ | .jmpi _ | .jmpm _ => .single
  | .add _ | .addi _ | .addm _ | .sub _ | .subi _ | .subm _ | .mult _ | .multi _
  | .multm _ | .and _ | .andi _ | .andm _ | .or _ | .ori _ | .orm _ => .alu
  | .div _ | .divi _ | .divm _ | .mod _ | .modi _ | .modm _ => .divide
  | .jmpeq _ | .jmpeqi _ | .jmpeqm _ | .jmpne _ | .jmpnei _ | .jmpnem _ | .jmpgt _ | .jmpgti _
  | .jmpgtm _ | .jmplt _ | .jmplti _ | .jmpltm _ | .jmpge _ | .jmpgei _ | .jmpgem _ | .jmple _
  | .jmplei _ | .jmplem _ => .condJump

/-- The operand micro-step of the direct and indirect binary ALU forms (R154): `VR <- M[AR]`. -/
def operandFromMemory (s : State) : Result := memRead s s.ar fun v => .next (s.setVr v).stayInPhase

/-- The operand micro-step of the immediate binary ALU forms (R154): `VR <- zext_32(operand24)`. -/
def operandImmediate (x : Operand24) (s : State) : Result := .next (s.setVr (zext32 x)).stayInPhase

/-- What a jump does with the target of its form (R200): the word at AR, reduced, for the direct and indirect forms
(notes/assumptions/18.md). -/
def withTargetFromMemory (s : State) (k : Nat → State) : Result :=
  memRead s s.ar fun v => .next (k (wordMod v s.cfg.n))

/-- What a jump does with the target of its form (R200): the operand itself, reduced, for the immediate forms. -/
def withImmediateTarget (x : Operand24) (s : State) (k : Nat → State) : Result := .next (k (operandMod x s.cfg.n))

end Sys2Proof.Machine
end

