-- ==== Sys2Proof/Machine/Alu.lean ====
section
/-!
DEFINITION. Sys2Proof/Machine/Alu.lean: the EXECUTE micro-steps of the binary ALU forms and of NOT (41_data_alu.md R154 to
R156, R175 to R196).
-/

namespace Sys2Proof.Machine

/-- The combine micro-step (R155): `ACC <- f(ACC, VR)`, then AdvancePC(). -/
def combine (f : Word → Word → Word) (s : State) : Result := .next (s.setAcc (f s.acc s.vr)).advancePC

/-- The combine micro-step of the DIV and MOD forms (R155, R156): with VR = 0 the fault takes the place of the whole
micro-step. -/
def combineUnlessZero (f : Word → Word → Word) (s : State) : Result :=
  if s.vr = 0#32 then .next s.raiseDivideByZero else combine f s

/-- ADD (R175). -/
def execAdd (s : State) : Result := twoMicroSteps s (operandFromMemory s) (combine aluAdd s)

/-- ADDI (R176). -/
def execAddi (s : State) : Result := twoMicroSteps s (operandFromMemory s) (combine aluAdd s)

/-- ADDM (R177). -/
def execAddm (x : Operand24) (s : State) : Result :=
  twoMicroSteps s (operandImmediate x s) (combine aluAdd s)

/-- SUB (R178). -/
def execSub (s : State) : Result := twoMicroSteps s (operandFromMemory s) (combine aluSub s)

/-- SUBI (R179). -/
def execSubi (s : State) : Result := twoMicroSteps s (operandFromMemory s) (combine aluSub s)

/-- SUBM (R180). -/
def execSubm (x : Operand24) (s : State) : Result :=
  twoMicroSteps s (operandImmediate x s) (combine aluSub s)

/-- MULT (R181). -/
def execMult (s : State) : Result := twoMicroSteps s (operandFromMemory s) (combine aluMul s)

/-- MULTI (R182). -/
def execMulti (s : State) : Result := twoMicroSteps s (operandFromMemory s) (combine aluMul s)

/-- MULTM (R183). -/
def execMultm (x : Operand24) (s : State) : Result :=
  twoMicroSteps s (operandImmediate x s) (combine aluMul s)

/-- DIV (R184). -/
def execDiv (s : State) : Result := twoMicroSteps s (operandFromMemory s) (combineUnlessZero aluDiv s)

/-- DIVI (R185). -/
def execDivi (s : State) : Result := twoMicroSteps s (operandFromMemory s) (combineUnlessZero aluDiv s)

/-- DIVM (R186). -/
def execDivm (x : Operand24) (s : State) : Result :=
  twoMicroSteps s (operandImmediate x s) (combineUnlessZero aluDiv s)

/-- MOD (R187). -/
def execMod (s : State) : Result := twoMicroSteps s (operandFromMemory s) (combineUnlessZero aluMod s)

/-- MODI (R188). -/
def execModi (s : State) : Result := twoMicroSteps s (operandFromMemory s) (combineUnlessZero aluMod s)

/-- MODM (R189). -/
def execModm (x : Operand24) (s : State) : Result :=
  twoMicroSteps s (operandImmediate x s) (combineUnlessZero aluMod s)

/-- AND (R190). -/
def execAnd (s : State) : Result := twoMicroSteps s (operandFromMemory s) (combine aluAnd s)

/-- ANDI (R191). -/
def execAndi (s : State) : Result := twoMicroSteps s (operandFromMemory s) (combine aluAnd s)

/-- ANDM (R192). -/
def execAndm (x : Operand24) (s : State) : Result :=
  twoMicroSteps s (operandImmediate x s) (combine aluAnd s)

/-- OR (R193). -/
def execOr (s : State) : Result := twoMicroSteps s (operandFromMemory s) (combine aluOr s)

/-- ORI (R194). -/
def execOri (s : State) : Result := twoMicroSteps s (operandFromMemory s) (combine aluOr s)

/-- ORM (R195). -/
def execOrm (x : Operand24) (s : State) : Result :=
  twoMicroSteps s (operandImmediate x s) (combine aluOr s)

/-- NOT (R196). -/
def execNot (s : State) : Result := singleMicroStep s (.next (s.setAcc (aluNot s.acc)).advancePC)

end Sys2Proof.Machine
end

