-- ==== Sys2Proof/Machine/Control.lean ====
section
/-!
DEFINITION. Sys2Proof/Machine/Control.lean: the EXECUTE micro-steps of NOP, HALT and BREAK (40_cycle_engine.md R116 to
R119). An unknown opcode decodes as NOP (R117).
-/

namespace Sys2Proof.Machine

/-- NOP (R116; one micro-step, notes/assumptions/17.md). -/
def execNop (s : State) : Result := singleMicroStep s (.next s.advancePC)

/-- HALT (R118): PC is not advanced. -/
def execHalt (s : State) : Result := singleMicroStep s (.next s.enterHalt)

/-- BREAK (R119): Halted(Break), and the program goes on (one micro-step, notes/assumptions/17.md). -/
def execBreak (s : State) : Result := singleMicroStep s (.next s.notifyBreak.advancePC)

end Sys2Proof.Machine
end

