-- ==== Sys2Proof/Machine/DataMove.lean ====
section
/-!
DEFINITION. Sys2Proof/Machine/DataMove.lean: the EXECUTE micro-steps of the LOAD and STORE forms (41_data_alu.md R160 to
R171). INDIRECT has resolved AR for the direct and indirect forms (R105 to R107).
-/

namespace Sys2Proof.Machine

/-- `ACC <- M[AR]`, then AdvancePC() (R160, R161). -/
def loadFromMemory (s : State) : Result := memRead s s.ar fun v => .next (s.setAcc v).advancePC

/-- `M[AR] <- ACC`, then AdvancePC() (R170, R171). -/
def storeToMemory (s : State) : Result := memWrite s s.ar s.acc fun t => .next t.advancePC

/-- LOAD (R160; one micro-step, notes/assumptions/17.md). -/
def execLoad (s : State) : Result := singleMicroStep s (loadFromMemory s)

/-- LOADI (R161; one micro-step, notes/assumptions/17.md). -/
def execLoadi (s : State) : Result := singleMicroStep s (loadFromMemory s)

/-- LOADM (R162): `ACC <- zext_32(operand24)` (one micro-step, notes/assumptions/17.md). -/
def execLoadm (x : Operand24) (s : State) : Result := singleMicroStep s (.next (s.setAcc (zext32 x)).advancePC)

/-- STORE (R170). -/
def execStore (s : State) : Result := singleMicroStep s (storeToMemory s)

/-- STOREI (R171). -/
def execStorei (s : State) : Result := singleMicroStep s (storeToMemory s)

end Sys2Proof.Machine
end

