-- ==== Sys2Proof/Machine/Jump.lean ====
section
/-!
DEFINITION. Sys2Proof/Machine/Jump.lean: the EXECUTE micro-steps of JMP and of the conditional jumps (42_control_flow.md
R200 to R227). JMPGEM and JMPLEM are instructions of their own, with no fall-through (R231).
-/

namespace Sys2Proof.Machine

/-- `PC <- target`, back to FETCH, with no increment (R204). -/
def State.jumpTo (s : State) (target : Nat) : State := (s.setPc target).enter .fetch

/-- A taken conditional jump also clears JF (R203). -/
def State.takeJump (s : State) (target : Nat) : State := ((s.setPc target).setJf false).enter .fetch

/-- The resolution micro-step of the direct and indirect conditional jumps (R203, R200). -/
def resolveFromMemory (s : State) : Result :=
  if s.jf then withTargetFromMemory s s.takeJump else .next s.advancePC

/-- The resolution micro-step of the immediate conditional jumps (R203, R200). -/
def resolveImmediate (x : Operand24) (s : State) : Result :=
  if s.jf then withImmediateTarget x s s.takeJump else .next s.advancePC

/-- JMP (R205, R204; one micro-step, notes/assumptions/17.md). -/
def execJmp (s : State) : Result := singleMicroStep s (withTargetFromMemory s s.jumpTo)

/-- JMPI (R206, R204; one micro-step, notes/assumptions/17.md). -/
def execJmpi (s : State) : Result := singleMicroStep s (withTargetFromMemory s s.jumpTo)

/-- JMPM (R207, R204; one micro-step, notes/assumptions/17.md). -/
def execJmpm (x : Operand24) (s : State) : Result := singleMicroStep s (withImmediateTarget x s s.jumpTo)

/-- JMPEQ (R210). -/
def execJmpeq (s : State) : Result := twoMicroSteps s (condTest .eq s) (resolveFromMemory s)

/-- JMPEQI (R211). -/
def execJmpeqi (s : State) : Result := twoMicroSteps s (condTest .eq s) (resolveFromMemory s)

/-- JMPEQM (R212). -/
def execJmpeqm (x : Operand24) (s : State) : Result := twoMicroSteps s (condTest .eq s) (resolveImmediate x s)

/-- JMPNE (R213). -/
def execJmpne (s : State) : Result := twoMicroSteps s (condTest .ne s) (resolveFromMemory s)

/-- JMPNEI (R214). -/
def execJmpnei (s : State) : Result := twoMicroSteps s (condTest .ne s) (resolveFromMemory s)

/-- JMPNEM (R215). -/
def execJmpnem (x : Operand24) (s : State) : Result := twoMicroSteps s (condTest .ne s) (resolveImmediate x s)

/-- JMPGT (R216). -/
def execJmpgt (s : State) : Result := twoMicroSteps s (condTest .gt s) (resolveFromMemory s)

/-- JMPGTI (R217). -/
def execJmpgti (s : State) : Result := twoMicroSteps s (condTest .gt s) (resolveFromMemory s)

/-- JMPGTM (R218). -/
def execJmpgtm (x : Operand24) (s : State) : Result := twoMicroSteps s (condTest .gt s) (resolveImmediate x s)

/-- JMPLT (R219). -/
def execJmplt (s : State) : Result := twoMicroSteps s (condTest .lt s) (resolveFromMemory s)

/-- JMPLTI (R220). -/
def execJmplti (s : State) : Result := twoMicroSteps s (condTest .lt s) (resolveFromMemory s)

/-- JMPLTM (R221). -/
def execJmpltm (x : Operand24) (s : State) : Result := twoMicroSteps s (condTest .lt s) (resolveImmediate x s)

/-- JMPGE (R222). -/
def execJmpge (s : State) : Result := twoMicroSteps s (condTest .ge s) (resolveFromMemory s)

/-- JMPGEI (R223). -/
def execJmpgei (s : State) : Result := twoMicroSteps s (condTest .ge s) (resolveFromMemory s)

/-- JMPGEM (R224). -/
def execJmpgem (x : Operand24) (s : State) : Result := twoMicroSteps s (condTest .ge s) (resolveImmediate x s)

/-- JMPLE (R225). -/
def execJmple (s : State) : Result := twoMicroSteps s (condTest .le s) (resolveFromMemory s)

/-- JMPLEI (R226). -/
def execJmplei (s : State) : Result := twoMicroSteps s (condTest .le s) (resolveFromMemory s)

/-- JMPLEM (R227). -/
def execJmplem (x : Operand24) (s : State) : Result := twoMicroSteps s (condTest .le s) (resolveImmediate x s)

end Sys2Proof.Machine
end

