-- ==== Sys2Proof/Machine/Dispatch.lean ====
section
/-!
DEFINITION. Sys2Proof/Machine/Dispatch.lean: ExecuteStep(op) (R100, R109): one arm for each instruction, in R74's order.
-/

namespace Sys2Proof.Machine

def exec (i : Instr) (s : State) : Host.Outcome State Fault Refusal :=
  match i with
  | .nop _ => Sys2Proof.Machine.execNop s
  | .halt _ => Sys2Proof.Machine.execHalt s
  | .brk _ => Sys2Proof.Machine.execBreak s
  | .load _ => Sys2Proof.Machine.execLoad s
  | .loadi _ => Sys2Proof.Machine.execLoadi s
  | .loadm x => Sys2Proof.Machine.execLoadm x s
  | .store _ => Sys2Proof.Machine.execStore s
  | .storei _ => Sys2Proof.Machine.execStorei s
  | .add _ => Sys2Proof.Machine.execAdd s
  | .addi _ => Sys2Proof.Machine.execAddi s
  | .addm x => Sys2Proof.Machine.execAddm x s
  | .sub _ => Sys2Proof.Machine.execSub s
  | .subi _ => Sys2Proof.Machine.execSubi s
  | .subm x => Sys2Proof.Machine.execSubm x s
  | .mult _ => Sys2Proof.Machine.execMult s
  | .multi _ => Sys2Proof.Machine.execMulti s
  | .multm x => Sys2Proof.Machine.execMultm x s
  | .div _ => Sys2Proof.Machine.execDiv s
  | .divi _ => Sys2Proof.Machine.execDivi s
  | .divm x => Sys2Proof.Machine.execDivm x s
  | .mod _ => Sys2Proof.Machine.execMod s
  | .modi _ => Sys2Proof.Machine.execModi s
  | .modm x => Sys2Proof.Machine.execModm x s
  | .and _ => Sys2Proof.Machine.execAnd s
  | .andi _ => Sys2Proof.Machine.execAndi s
  | .andm x => Sys2Proof.Machine.execAndm x s
  | .or _ => Sys2Proof.Machine.execOr s
  | .ori _ => Sys2Proof.Machine.execOri s
  | .orm x => Sys2Proof.Machine.execOrm x s
  | .not _ => Sys2Proof.Machine.execNot s
  | .jmp _ => Sys2Proof.Machine.execJmp s
  | .jmpi _ => Sys2Proof.Machine.execJmpi s
  | .jmpm x => Sys2Proof.Machine.execJmpm x s
  | .jmpeq _ => Sys2Proof.Machine.execJmpeq s
  | .jmpeqi _ => Sys2Proof.Machine.execJmpeqi s
  | .jmpeqm x => Sys2Proof.Machine.execJmpeqm x s
  | .jmpne _ => Sys2Proof.Machine.execJmpne s
  | .jmpnei _ => Sys2Proof.Machine.execJmpnei s
  | .jmpnem x => Sys2Proof.Machine.execJmpnem x s
  | .jmpgt _ => Sys2Proof.Machine.execJmpgt s
  | .jmpgti _ => Sys2Proof.Machine.execJmpgti s
  | .jmpgtm x => Sys2Proof.Machine.execJmpgtm x s
  | .jmplt _ => Sys2Proof.Machine.execJmplt s
  | .jmplti _ => Sys2Proof.Machine.execJmplti s
  | .jmpltm x => Sys2Proof.Machine.execJmpltm x s
  | .jmpge _ => Sys2Proof.Machine.execJmpge s
  | .jmpgei _ => Sys2Proof.Machine.execJmpgei s
  | .jmpgem x => Sys2Proof.Machine.execJmpgem x s
  | .jmple _ => Sys2Proof.Machine.execJmple s
  | .jmplei _ => Sys2Proof.Machine.execJmplei s
  | .jmplem x => Sys2Proof.Machine.execJmplem x s

end Sys2Proof.Machine
end

