-- ==== Sys2Proof/Machine/Cycle.lean ====
section
/-!
DEFINITION. Sys2Proof/Machine/Cycle.lean: the FETCH and INDIRECT micro-steps (R103 to R108), the micro-step a call of
`step()` performs (R100), and the placing of an instruction for the step that runs it.
-/

namespace Sys2Proof.Machine

/-- FetchStep() (R103, R104): `AR <- PC mod N`, then `IR <- M[AR]`. -/
def fetchStep (s : State) : Result :=
  twoMicroSteps s (.next (s.setAr (s.pc % s.cfg.n)).stayInPhase)
    (memRead s s.ar fun w => .next ((s.setIr w).enter .indirect))

/-- IndirectStep() for the direct forms (R105). -/
def resolveDirect (x : Operand24) (s : State) : Result :=
  singleMicroStep s (.next ((s.setAr (operandMod x s.cfg.n)).enter .execute))

/-- IndirectStep() for the indirect forms (R106, R107): the pointer's address, then the pointer itself, reduced
(notes/assumptions/14.md). -/
def resolveIndirect (x : Operand24) (s : State) : Result :=
  twoMicroSteps s (.next (s.setAr (operandMod x s.cfg.n)).stayInPhase)
    (memRead s s.ar fun v => .next ((s.setAr (wordMod v s.cfg.n)).enter .execute))

/-- IndirectStep() for the immediate forms and for the instructions without an operand (R108): AR is left alone. -/
def resolveNothing (s : State) : Result := singleMicroStep s (.next (s.enter .execute))

/-- IndirectStep() (R105 to R108), selected by the addressing class. -/
def indirectStep (i : Instr) (s : State) : Result :=
  match addrClass i with
  | .direct => resolveDirect i.operand s
  | .indirect => resolveIndirect i.operand s
  | .immediate => resolveNothing s
  | .none => resolveNothing s

/-- `(op, operand24) = decode(IR)` (R101), under the core's opcode map. -/
def State.current (s : State) : Instr := decodeWith s.cfg.opcodeMap s.ir

/-- One call of `step()`: exactly one micro-step (R100), selected by PH, by UC and by the decoded IR. -/
def microStep (s : State) : Result :=
  match s.ph with
  | .fetch => fetchStep s.openMicroStep
  | .indirect => indirectStep s.current s.openMicroStep
  | .execute => exec s.current s.openMicroStep
  | .halt => .next (s.idleStep .ok)
  | .error => .next (s.idleStep .errorDivideByZero)

/-- Perform micro-steps, at most `fuel` of them, until the core is in EXECUTE. A micro-step that stops leaves the
state where it was. -/
def runToExecute : Nat → State → State
  | 0, s => s
  | fuel + 1, s =>
    if s.ph = .execute then s
    else match microStep s with
      | .next t => runToExecute fuel t
      | .fault _ => s
      | .refused _ => s

/-- The state with a word stored where FETCH reads its next instruction, at the beginning of FETCH. -/
def placeWord (w : Word) (s : State) : State :=
  { s with mem := s.mem.write (s.pc % s.cfg.n) w, ph := .fetch, uc := 0 }

/-- The state in which the very next micro-step is the first EXECUTE micro-step of a word: the word is stored at PC and
the two FETCH and the one or two INDIRECT micro-steps are performed (notes/assumptions/11.md). -/
def placeInstruction (w : Word) (s : State) : State := runToExecute 4 (placeWord w s)

end Sys2Proof.Machine
end

