-- ==== Sys2Proof/Machine/Step.lean ====
section
/-!
DEFINITION. Sys2Proof/Machine/Step.lean: the core's step, and the placing of an instruction that the host asks for.
-/

namespace Sys2Proof.Machine

/-- One call of `step()` (R100): one micro-step. -/
def step (s : State) : Host.Outcome State Fault Refusal := microStep s

/-- The state in which the very next step executes the instruction whose low `nbits` bits are those of `w`
(notes/assumptions/11.md). -/
def State.withFetchWord (s : State) (nbits w : Nat) : State := placeInstruction (BitVec.ofNat 32 (w % 2 ^ nbits)) s

end Sys2Proof.Machine
end

