-- ==== Sys2Proof/Machine/HostOps.lean ====
section
/-!
DEFINITION. Sys2Proof/Machine/HostOps.lean: what the host can do to the core between two micro-steps (R355): building it
(R354), `reset()` (R350), `loadMemory(words)` (R352), `getMemory()` and `getMemorySize()` (R353).
-/

namespace Sys2Proof.Machine

/-- Building the core (R354): it starts in the reset state of R34; a configuration no core has is refused. Nothing is
emitted (notes/assumptions/13.md). -/
def construct (c : Config) : Result :=
  match c.problem with
  | some p => .refused (.badConfig p)
  | none => .next { State.resetOf c 0 with out := Output.silent }

/-- `reset()` (R350), in any phase. The drawn trace texts stay drawn (notes/assumptions/5.md). -/
def State.hostReset (s : State) : State := State.resetOf s.cfg s.traceDraws

/-- `loadMemory(words)` (R352): M alone is replaced, and only by exactly N words. -/
def loadMemory (words : List Word) (s : State) : Result :=
  if words.length = s.cfg.n then
    .next { s with mem := Memory.ofWords 0 words, out := { Output.silent with mem := some (Memory.ofWords 0 words) } }
  else .refused (.imageLength words.length)

/-- `getMemory()` (R353): the N words of M. -/
def State.getMemory (s : State) : List Word := (List.range s.cfg.n).map s.mem.read

/-- `getMemorySize()` (R353). -/
def State.getMemorySize (s : State) : Nat := s.cfg.n

/-- One notification as R114 lists it. `Highlight` is never produced (R121). -/
inductive Notification where
  | accumulatorChanged (v : Word)
  | valueRegisterChanged (v : Word)
  | instructionRegisterChanged (v : Word)
  | programCounterChanged (v : Nat)
  | addressRegisterChanged (v : Nat)
  | jmpFlagChanged (v : Bool)
  /-- MemChanged(s), s being all N words. -/
  | memChanged (words : List Word)
  | phaseChanged (p : Phase)
  | trace (text : String)
  | haltedTerminal
  | haltedBreak
  deriving DecidableEq, Repr

/-- The notifications of the most recent call. R115 leaves their order open: the list stands for the collection of its
members, and no claim may read its order (notes/assumptions/4.md). -/
def State.notifications (s : State) : List Notification :=
  (s.out.acc.map .accumulatorChanged).toList ++ (s.out.vr.map .valueRegisterChanged).toList ++
  (s.out.ir.map .instructionRegisterChanged).toList ++ (s.out.pc.map .programCounterChanged).toList ++
  (s.out.ar.map .addressRegisterChanged).toList ++ (s.out.jf.map .jmpFlagChanged).toList ++
  (s.out.mem.map fun m => .memChanged ((List.range s.cfg.n).map m.read)).toList ++
  (s.out.phase.map .phaseChanged).toList ++ (s.out.trace.map fun k => .trace (Config.traceText k)).toList ++
  (if s.out.haltedTerminal then [.haltedTerminal] else []) ++ (if s.out.haltedBreak then [.haltedBreak] else [])

end Sys2Proof.Machine
end

