-- ==== Sys2Proof/Safety.lean ====
section
/-!
DEFINITION. Sys2Proof/Safety.lean: the terms the claims use: the states a run can be in (R24 to R29, R123), an
instruction's boundaries (R120), a jump (V-P1), and the ends of a run (R362).
-/

namespace Sys2Proof.Machine

/-- `k` calls of `step()`. -/
def run (k : Nat) (s : State) : Result := Host.Core.run Sys2Proof.core k s

/-- The (PH, UC) pairs of R123, with the instructions that reach them. -/
def State.ReachablePair (s : State) : Prop :=
  match s.ph with
  | .fetch => True
  | .indirect => s.uc = 1 → addrClass s.current = .indirect
  | .execute => s.uc = 1 → execGroup s.current ≠ .single
  | .halt => s.uc = 0
  | .error => s.uc = 0

/-- What holds of every state a run from reset can be in. -/
structure State.Inv (s : State) : Prop where
  /-- The core can be built with its parameters (R6, R8). -/
  cfg : s.cfg.wf
  /-- Memory is in canonical form. -/
  memWf : s.mem.wf
  /-- Memory lists only addresses in [0, N) (R50). -/
  memBounded : s.mem.bounded s.cfg.n
  /-- PC is in [0, N) (R24). -/
  pc : s.pc < s.cfg.n
  /-- AR is in [0, N) (R25). -/
  ar : s.ar < s.cfg.n
  /-- Only the pairs of R123 occur. -/
  pair : s.ReachablePair
  /-- JF is true only between the test and the resolution of a conditional jump (R26). -/
  jf : s.jf = true → s.ph = .execute ∧ s.uc = 1 ∧ execGroup s.current = .condJump
  /-- FLT is set exactly in the error phase (R29, R362). -/
  flt : s.flt = .divideByZero ↔ s.ph = .error
  /-- The fault leaves VR = 0 and the faulting DIV or MOD form in IR (R301, R302). -/
  cause : s.ph = .error → s.vr = 0#32 ∧ execGroup s.current = .divide

/-- What AR holds in each phase once FETCH has begun (R103, R105, R106, R108). The indirect forms' second INDIRECT
micro-step reads it from memory (R107), so nothing is said of it there. -/
def State.AddressResolved (s : State) : Prop :=
  match s.ph, s.uc with
  | .fetch, 1 => s.ar = s.pc
  | .indirect, 0 => s.ar = s.pc
  | .indirect, 1 => s.ar = operandMod s.current.operand s.cfg.n
  | .execute, _ =>
    match addrClass s.current with
    | .direct => s.ar = operandMod s.current.operand s.cfg.n
    | .indirect => True
    | .immediate => s.ar = s.pc
    | .none => s.ar = s.pc
  | _, _ => True

/-- FETCH is about to begin. -/
def State.atFetch (s : State) : Prop := s.ph = .fetch ∧ s.uc = 0

/-- FETCH is about to begin, and the word it will read decodes to `i` under the core's opcode map. -/
def State.fetches (s : State) (i : Instr) : Prop :=
  s.atFetch ∧ s.pc < s.cfg.n ∧ decodeWith s.cfg.opcodeMap (s.mem.read s.pc) = i

/-- The state of the core itself: the tuple of R20 with the build-time parameters, without the model's own fields. -/
structure Arch where
  cfg : Config
  acc : Word
  vr : Word
  ir : Word
  pc : Nat
  ar : Nat
  jf : Bool
  uc : Fin 2
  ph : Phase
  flt : FaultRecord
  mem : Memory
  deriving DecidableEq, Repr

/-- The core's own part of a state. -/
def State.arch (s : State) : Arch :=
  { cfg := s.cfg, acc := s.acc, vr := s.vr, ir := s.ir, pc := s.pc, ar := s.ar, jf := s.jf, uc := s.uc, ph := s.ph,
    flt := s.flt, mem := s.mem }

/-- What R111 makes of the core's own part at the end of an instruction that advances. -/
def Arch.advanced (a : Arch) : Arch :=
  if a.pc + 1 < a.cfg.n then { a with pc := a.pc + 1, ph := .fetch, uc := 0 } else { a with ph := .halt, uc := 0 }

/-- The core's own part at the beginning of EXECUTE: the word at PC is in IR and the given address in AR. -/
def State.resolvedAt (s : State) (address : Nat) : Arch :=
  { s.arch with ir := s.mem.read s.pc, ar := address, ph := .execute, uc := 0 }

/-- The address a direct operand names (R79). -/
def State.directAddress (s : State) (x : Operand24) : Nat := x.toNat % s.cfg.n

/-- The address an indirect operand names (R78, R107): the word the operand points at, reduced by the Euclidean
remainder. -/
def State.indirectAddress (s : State) (x : Operand24) : Nat :=
  ((s.mem.read (s.directAddress x)).toInt % (s.cfg.n : Int)).toNat

/-- The jump target a memory word gives (R200). -/
def State.targetAt (s : State) (a : Nat) : Nat := ((s.mem.read a).toInt % (s.cfg.n : Int)).toNat

/-- A 32-bit operation given by exact integer arithmetic on the signed values, narrowed at the end (R12, R150). -/
def narrowed (f : Int → Int → Int) (a b : Word) : Word := BitVec.ofInt 32 (f a.toInt b.toInt)

/-- A family's instruction forms, each with its operation. -/
abbrev AluForms := List ((Operand24 → Instr) × (Word → Word → Word))

/-- ADD, SUB and MULT with their operations (R150), direct. -/
def directArithmetic : AluForms :=
  [(.add, narrowed (· + ·)), (.sub, narrowed (· - ·)), (.mult, narrowed (· * ·))]
/-- ADD, SUB and MULT, indirect. -/
def indirectArithmetic : AluForms :=
  [(.addi, narrowed (· + ·)), (.subi, narrowed (· - ·)), (.multi, narrowed (· * ·))]
/-- ADD, SUB and MULT, immediate. -/
def immediateArithmetic : AluForms :=
  [(.addm, narrowed (· + ·)), (.subm, narrowed (· - ·)), (.multm, narrowed (· * ·))]
/-- AND and OR (R153), direct. -/
def directLogic : AluForms := [(.and, (· &&& ·)), (.or, (· ||| ·))]
/-- AND and OR, indirect. -/
def indirectLogic : AluForms := [(.andi, (· &&& ·)), (.ori, (· ||| ·))]
/-- AND and OR, immediate. -/
def immediateLogic : AluForms := [(.andm, (· &&& ·)), (.orm, (· ||| ·))]
/-- DIV and MOD (R151, R152), direct. -/
def directDivision : AluForms := [(.div, narrowed Int.tdiv), (.mod, narrowed Int.tmod)]
/-- DIV and MOD, indirect. -/
def indirectDivision : AluForms := [(.divi, narrowed Int.tdiv), (.modi, narrowed Int.tmod)]
/-- DIV and MOD, immediate. -/
def immediateDivision : AluForms := [(.divm, narrowed Int.tdiv), (.modm, narrowed Int.tmod)]

/-- The conditional jumps' forms, each with its predicate on the signed accumulator (R201). -/
abbrev JumpForms := List ((Operand24 → Instr) × (Int → Bool))

/-- The direct conditional jumps. -/
def directConditions : JumpForms :=
  [(.jmpeq, fun a => a = 0), (.jmpne, fun a => a ≠ 0), (.jmpgt, fun a => a > 0), (.jmplt, fun a => a < 0),
    (.jmpge, fun a => a ≥ 0), (.jmple, fun a => a ≤ 0)]
/-- The indirect conditional jumps. -/
def indirectConditions : JumpForms :=
  [(.jmpeqi, fun a => a = 0), (.jmpnei, fun a => a ≠ 0), (.jmpgti, fun a => a > 0), (.jmplti, fun a => a < 0),
    (.jmpgei, fun a => a ≥ 0), (.jmplei, fun a => a ≤ 0)]
/-- The immediate conditional jumps. -/
def immediateConditions : JumpForms :=
  [(.jmpeqm, fun a => a = 0), (.jmpnem, fun a => a ≠ 0), (.jmpgtm, fun a => a > 0), (.jmpltm, fun a => a < 0),
    (.jmpgem, fun a => a ≥ 0), (.jmplem, fun a => a ≤ 0)]

/-- The core stands at the end of an instruction: before the next FETCH, in HALT or in ERROR. -/
def State.atBoundary (s : State) : Prop := s.atFetch ∨ s.ph = .halt ∨ s.ph = .error

/-- An instruction takes `k` micro-steps from FETCH entry to the end of its last EXECUTE micro-step (R120). -/
def Takes (i : Instr) (k : Nat) : Prop :=
  ∀ s : State, s.Inv → s.atFetch → decodeWith s.cfg.opcodeMap (s.mem.read s.pc) = i →
    (∃ t, run k s = .next t ∧ t.atBoundary) ∧
    ∀ j, 0 < j → j < k → ∃ u, run j s = .next u ∧ ¬ u.atBoundary

/-- The micro-step to come is one in which a jump rule writes PC (R203, R204). -/
def State.takesJump (s : State) : Prop :=
  s.ph = .execute ∧
    ((s.uc = 0 ∧ ∃ x, s.current = .jmp x ∨ s.current = .jmpi x ∨ s.current = .jmpm x) ∨
     (s.uc = 1 ∧ execGroup s.current = .condJump ∧ s.jf = true))

/-- A run that has ended normally (R362). -/
def State.halted (s : State) : Prop := s.ph = .halt ∧ s.flt = .noFault

/-- A run that has ended in the divide-by-zero fault (R362). -/
def State.faulted (s : State) : Prop := s.ph = .error ∧ s.flt = .divideByZero

end Sys2Proof.Machine
end

