-- ==== Sys2Proof/Certificates/Slice0/Obligations.lean ====
section
/-!
DEFINITION. Sys2Proof/Certificates/Slice0/Obligations.lean: the statements for the provers. Every statement holds for
every memory size and every opcode map its hypotheses admit, unless it names the default map.
-/

open Sys2Proof Sys2Proof.Machine

-- ---------------------------------------------------------------- the codec (30_encoding.md)

/-- R73, R81: under an injective map, decoding the encoding of an instruction gives the instruction back, with every
operand; and the encoding is the opcode value shifted above the operand. R81 marks this `enc` as the spec's own, for
its test vectors: the core has no encoder. -/
def Obligations.DecodeOfEncodeIsTheInstruction : Prop :=
  ∀ m : OpcodeMap, m.wf → ∀ i : Instr,
    decodeWith m (encodeWith m i) = i ∧
    encodeWith m i = ((opcodeValue m i).setWidth 32 <<< 24) ||| (i.operand.setWidth 32 &&& 0xFFFFFF#32)

/-- R70, R73: a word whose opcode value the map knows is the encoding of what it decodes to, so no bit of it is lost. -/
def Obligations.EncodeOfDecodeIsTheWord : Prop :=
  ∀ m : OpcodeMap, m.wf → ∀ w : Word, opcField w ∈ m → encodeWith m (decodeWith m w) = w

/-- R71, R72: the opcode field is the word rotated left by 8 and masked to 8 bits, and the operand is the word masked to
its low 24 bits. -/
def Obligations.FieldsAreTheRotatedAndMaskedWord : Prop :=
  ∀ w : Word, (opcField w).setWidth 32 = (w.rotateLeft 8 &&& 0xFF#32) ∧
    (operandField w).setWidth 32 = (w &&& 0xFFFFFF#32)

/-- R75: under the default map every opcode value from 51 to 255 decodes as NOP, under any map every value outside it
does, and a NOP executes in the same way whatever its operand. That 51 is the first unknown value is the spec's decision
D1 (notes/assumptions/2.md), and that the operand bits change nothing is R76's own inference. -/
def Obligations.UnknownOpcodeDecodesAsNop : Prop :=
  (∀ w : Word, 51 ≤ (opcField w).toNat → decodeWith OpcodeMap.default w = .nop (operandField w)) ∧
  (∀ (m : OpcodeMap) (w : Word), opcField w ∉ m → decodeWith m w = .nop (operandField w)) ∧
  (∀ (x y : Operand24) (s : State), exec (.nop x) s = exec (.nop y) s)

/-- R74: under the default map the opcode values 0 to 50 are the 51 mnemonics in the table's order, with any operand.
The numbers are the spec's decision D1 (notes/assumptions/2.md). -/
def Obligations.DefaultTableDecodesEveryRow : Prop :=
  ∀ (x : Operand24) (k : Nat) (c : Operand24 → Instr),
    ([Instr.nop, .halt, .brk, .load, .loadi, .loadm, .store, .storei, .add, .addi, .addm, .sub, .subi, .subm, .mult,
      .multi, .multm, .div, .divi, .divm, .mod, .modi, .modm, .and, .andi, .andm, .or, .ori, .orm, .not, .jmp, .jmpi,
      .jmpm, .jmpeq, .jmpeqi, .jmpeqm, .jmpne, .jmpnei, .jmpnem, .jmpgt, .jmpgti, .jmpgtm, .jmplt, .jmplti, .jmpltm,
      .jmpge, .jmpgei, .jmpgem, .jmple, .jmplei, .jmplem] : List (Operand24 → Instr))[k]? = some c →
    decode (BitVec.ofNat 8 k ++ x) = c x

/-- 95_test_vectors.md 2.1: words written out from R70's format decode to the instruction they stand for. The opcode
numbers are the spec's decision D1 (notes/assumptions/2.md). -/
def Obligations.SampleWordsDecode : Prop :=
  decode 0x00000000#32 = .nop 0 ∧ decode 0x01000000#32 = .halt 0 ∧ decode 0x0A000004#32 = .addm 4 ∧
  decode 0x1D00ABCD#32 = .not 0x00ABCD#24 ∧ decode 0x32FFFFFF#32 = .jmplem 0xFFFFFF#24 ∧
  decode 0x33000000#32 = .nop 0 ∧ decode 0x80000001#32 = .nop 1 ∧ decode 0xFF123456#32 = .nop 0x123456#24

-- ---------------------------------------------------------------- values (00_scope.md R12, 41_data_alu.md)

/-- R12, R53: reduction of a memory word is the Euclidean remainder, in [0, N) also for a negative word (the spec's
decision D4, notes/assumptions/14.md). -/
def Obligations.WordReductionIsEuclidean : Prop :=
  ∀ (w : Word) (n : Nat), 0 < n →
    wordMod w n < n ∧ ∃ q : Int, w.toInt = q * (n : Int) + (wordMod w n : Int)

/-- R150: sum, difference and product are the exact integer results wrapped to 32 signed bits. -/
def Obligations.SumsAndProductsWrap : Prop :=
  ∀ a b : Word,
    (aluAdd a b = a + b ∧ (aluAdd a b).toInt = (a.toInt + b.toInt).bmod (2 ^ 32)) ∧
    (aluSub a b = a - b ∧ (aluSub a b).toInt = (a.toInt - b.toInt).bmod (2 ^ 32)) ∧
    (aluMul a b = a * b ∧ (aluMul a b).toInt = (a.toInt * b.toInt).bmod (2 ^ 32))

/-- R151, R152: the quotient is truncated toward zero but for the one overflowing case, which gives -2^31; the remainder
is the dividend less divisor times quotient, smaller than the divisor, with the dividend's sign or zero. Both are the
spec's decision D8 (notes/assumptions/15.md). -/
def Obligations.QuotientTruncatesAndRemainderFollowsDividend : Prop :=
  ∀ a b : Word, b ≠ 0#32 →
    (¬ (a.toInt = -2 ^ 31 ∧ b.toInt = -1) → (aluDiv a b).toInt = a.toInt.tdiv b.toInt) ∧
    (a.toInt = -2 ^ 31 ∧ b.toInt = -1 → (aluDiv a b).toInt = -2 ^ 31 ∧ aluMod a b = 0#32) ∧
    (aluMod a b).toInt = a.toInt - b.toInt * a.toInt.tdiv b.toInt ∧
    (aluMod a b).toInt.natAbs < b.toInt.natAbs ∧
    (0 ≤ a.toInt → 0 ≤ (aluMod a b).toInt) ∧ (a.toInt ≤ 0 → (aluMod a b).toInt ≤ 0)

-- ---------------------------------------------------------------- memory (20_memory.md)

/-- Two memories in canonical form that read the same at every address are the same data. The canonical form is the
model's (notes/assumptions/3.md). -/
def Obligations.MemoryIsDeterminedByItsReads : Prop :=
  ∀ m m' : Memory, m.wf → m'.wf → (∀ a, m.read a = m'.read a) → m = m'

-- ---------------------------------------------------------------- reset and host operations (70_reset_and_hazards.md)

/-- R34, R350: what `reset()` leaves, in any state it is called in, and what it announces. FLT, the kept N and the
notifications are the spec's decisions D10, D3 and D16; the configuration of `State.reset` is the model's choice
(notes/assumptions/1.md and 2.md). -/
def Obligations.ResetLeavesTheResetValues : Prop :=
  (∀ s : State,
    s.hostReset.arch =
      { cfg := s.cfg, acc := 0, vr := 0, ir := 0, pc := 0, ar := 0, jf := false, uc := 0, ph := .fetch, flt := .noFault,
        mem := [] } ∧
    (∀ a, s.hostReset.mem.read a = 0#32) ∧
    s.hostReset.out =
      { acc := some 0, vr := some 0, ir := some 0, pc := some 0, ar := some 0, jf := some false, mem := some [],
        phase := some .fetch } ∧
    s.hostReset.traceDraws = s.traceDraws) ∧
  State.reset.cfg = Config.default ∧ State.reset = State.reset.hostReset

/-- R351: `reset()` is idempotent and always yields phase FETCH, all registers zero, and a cleared jump flag. -/
def Obligations.ResetIsIdempotent : Prop :=
  ∀ s : State, s.hostReset.hostReset = s.hostReset ∧ s.hostReset.ph = .fetch ∧ s.hostReset.acc = 0#32 ∧
    s.hostReset.vr = 0#32 ∧ s.hostReset.ir = 0#32 ∧ s.hostReset.pc = 0 ∧ s.hostReset.ar = 0 ∧ s.hostReset.uc = 0 ∧
    s.hostReset.jf = false

/-- R352, R353: `loadMemory` with exactly N words replaces memory, so that `getMemory` gives the words back, and changes
nothing else; with another number of words it is refused. The refusal and the frame are the spec's decision D14, the
queries D26. -/
def Obligations.LoadMemoryReplacesMemory : Prop :=
  ∀ (s : State) (words : List Word),
    (words.length = s.cfg.n →
      ∃ t, loadMemory words s = .next t ∧ t.getMemory = words ∧ t.getMemorySize = s.cfg.n ∧ t.mem.wf ∧
        t.arch = { s.arch with mem := t.mem } ∧ t.traceDraws = s.traceDraws ∧
        t.out = { Output.silent with mem := some t.mem }) ∧
    (words.length ≠ s.cfg.n → loadMemory words s = .refused (.imageLength words.length))

/-- R354, R6, R8: a core with 1 ≤ N ≤ 2^31 - 1 and an injective opcode map starts in the reset state; N = 0 is refused,
and no core is built with another configuration. The upper bound on N is the spec's decision D3
(notes/assumptions/1.md), the form of the map the model's (notes/assumptions/2.md). -/
def Obligations.ConstructionStartsInResetOrIsRefused : Prop :=
  ∀ c : Config,
    (c.wf → ∃ t, construct c = .next t ∧ t.arch = (State.resetOf c 0).arch) ∧
    (c.n = 0 → construct c = .refused (.badConfig .memorySizeZero)) ∧
    (∀ t, construct c = .next t → c.wf)

-- ---------------------------------------------------------------- the cycle engine (40_cycle_engine.md)

/-- R100, R101, R109: one call of `step()` is one micro-step selected by PH; in EXECUTE it is the decoded instruction's,
with the micro-step's Trace already in the batch (R121). -/
def Obligations.StepPerformsTheMicroStepOfThePhase : Prop :=
  ∀ s : State,
    (s.ph = .fetch → step s = fetchStep s.openMicroStep) ∧
    (s.ph = .indirect → step s = indirectStep (decodeWith s.cfg.opcodeMap s.ir) s.openMicroStep) ∧
    (s.ph = .execute → step s = exec (decodeWith s.cfg.opcodeMap s.ir) s.openMicroStep) ∧
    s.openMicroStep = { s with out := { trace := some s.traceDraws }, traceDraws := s.traceDraws + 1 }

/-- A STEP RUNS THE DECODED INSTRUCTION. When the word at PC decodes to an instruction, the FETCH and INDIRECT
micro-steps (R103 to R108) put the word into IR and the operand's address into AR, change nothing else, and the next
step is that instruction's EXECUTE. -/
def Obligations.FetchedInstructionIsExecuted : Prop :=
  ∀ (s : State) (i : Instr), s.fetches i →
    ∃ t, run (if addrClass i = .indirect then 4 else 3) s = .next t ∧
      t.arch = s.resolvedAt (match addrClass i with
        | .direct => s.directAddress i.operand
        | .indirect => s.indirectAddress i.operand
        | .immediate => s.pc
        | .none => s.pc) ∧
      step t = exec i t.openMicroStep

/-- R103, R104: the two FETCH micro-steps, with their notifications. -/
def Obligations.FetchReadsTheWordAtPc : Prop :=
  (∀ s : State, s.ph = .fetch → s.uc = 0 →
    step s = .next { s with
      ar := s.pc % s.cfg.n, uc := 1, traceDraws := s.traceDraws + 1,
      out := { trace := some s.traceDraws, ar := some (s.pc % s.cfg.n) } }) ∧
  (∀ s : State, s.ph = .fetch → s.uc = 1 → s.ar < s.cfg.n →
    step s = .next { s with
      ir := s.mem.read s.ar, ph := .indirect, uc := 0, traceDraws := s.traceDraws + 1,
      out := { trace := some s.traceDraws, ir := some (s.mem.read s.ar), phase := some .indirect } })

/-- R105, R108: INDIRECT resolves a direct operand in one micro-step, and resolves nothing for an immediate form or an
instruction without an operand. -/
def Obligations.DirectAddressIsResolvedInOneMicroStep : Prop :=
  ∀ s : State, s.ph = .indirect → s.uc = 0 →
    (addrClass s.current = .direct →
      step s = .next { s with
        ar := s.current.operand.toNat % s.cfg.n, ph := .execute, uc := 0, traceDraws := s.traceDraws + 1,
        out := { trace := some s.traceDraws, ar := some (s.current.operand.toNat % s.cfg.n),
                 phase := some .execute } }) ∧
    (addrClass s.current = .immediate ∨ addrClass s.current = .none →
      step s = .next { s with
        ph := .execute, uc := 0, traceDraws := s.traceDraws + 1,
        out := { trace := some s.traceDraws, phase := some .execute } })

/-- R106, R107: INDIRECT resolves a pointer in two micro-steps. The reduction of a negative pointer is the spec's
decision D4 (notes/assumptions/14.md). -/
def Obligations.PointerIsFollowedInTwoMicroSteps : Prop :=
  ∀ s : State, s.ph = .indirect → addrClass s.current = .indirect →
    (s.uc = 0 →
      step s = .next { s with
        ar := s.current.operand.toNat % s.cfg.n, uc := 1, traceDraws := s.traceDraws + 1,
        out := { trace := some s.traceDraws, ar := some (s.current.operand.toNat % s.cfg.n) } }) ∧
    (s.uc = 1 → s.ar < s.cfg.n →
      step s = .next { s with
        ar := ((s.mem.read s.ar).toInt % (s.cfg.n : Int)).toNat, ph := .execute, uc := 0,
        traceDraws := s.traceDraws + 1,
        out := { trace := some s.traceDraws, ar := some ((s.mem.read s.ar).toInt % (s.cfg.n : Int)).toNat,
                 phase := some .execute } })

/-- R111: AdvancePC() goes to the next address, and from the last one it halts the core without wrapping. -/
def Obligations.AdvanceStopsAtTheLastAddress : Prop :=
  ∀ s : State, 1 ≤ s.cfg.n →
    (s.pc < s.cfg.n - 1 →
      s.advancePC = { s with
        pc := s.pc + 1, ph := .fetch, uc := 0,
        out := { s.out with pc := some (s.pc + 1), phase := some .fetch } }) ∧
    (¬ s.pc < s.cfg.n - 1 →
      s.advancePC = { s with
        ph := .halt, uc := 0, out := { s.out with phase := some .halt, haltedTerminal := true } })

/-- R112, R113: however often `step()` is called in HALT or ERROR, the core keeps its state and emits nothing, and the
call returns Ok in HALT and the error again in ERROR. That nothing is emitted is the spec's decision D11, and ERROR its
D12 (notes/assumptions/10.md and 19.md). -/
def Obligations.HaltAndErrorAreTerminal : Prop :=
  ∀ (s : State) (k : Nat),
    (s.ph = .halt → run (k + 1) s = .next { s with out := {} }) ∧
    (s.ph = .error → run (k + 1) s = .next { s with out := { result := .errorDivideByZero } })

-- ---------------------------------------------------------------- EXECUTE micro-steps (R116 to R204)

/-- R116, R118, R119: NOP advances, HALT enters HALT where it stands, BREAK announces Halted(Break) and advances. The
one micro-step of NOP and BREAK is the spec's decision D7, BREAK at the last address its D24 (notes/assumptions/17.md
and 20.md). -/
def Obligations.ControlInstructionsExecute : Prop :=
  ∀ (x : Operand24) (s : State), s.uc = 0 →
    exec (.nop x) s = .next s.advancePC ∧
    exec (.halt x) s =
      .next { s with ph := .halt, uc := 0, out := { s.out with phase := some .halt, haltedTerminal := true } } ∧
    exec (.brk x) s = .next { s with out := { s.out with haltedBreak := true } }.advancePC

/-- R160 to R162, R196: the loads and NOT write ACC and advance, with nothing else changed. The one micro-step of the
loads is the spec's decision D6 (notes/assumptions/17.md). -/
def Obligations.LoadsAndNotWriteTheAccumulator : Prop :=
  ∀ (x : Operand24) (s : State), s.uc = 0 →
    (∀ c ∈ [Instr.load, Instr.loadi], s.ar < s.cfg.n →
      exec (c x) s = .next { s with
        acc := s.mem.read s.ar, out := { s.out with acc := some (s.mem.read s.ar) } }.advancePC) ∧
    exec (.loadm x) s = .next { s with
      acc := BitVec.ofNat 32 x.toNat, out := { s.out with acc := some (BitVec.ofNat 32 x.toNat) } }.advancePC ∧
    exec (.not x) s = .next { s with
      acc := BitVec.ofInt 32 (-s.acc.toInt - 1),
      out := { s.out with acc := some (BitVec.ofInt 32 (-s.acc.toInt - 1)) } }.advancePC

/-- R170, R171, R52: a store writes ACC to the word at AR, leaves every other word, announces the new memory and
advances; nothing else changes. -/
def Obligations.StoresWriteTheWordAtAr : Prop :=
  ∀ (x : Operand24) (s : State), s.uc = 0 → s.ar < s.cfg.n → s.mem.wf →
    ∀ c ∈ [Instr.store, Instr.storei],
      ∃ m : Memory, exec (c x) s = .next { s with mem := m, out := { s.out with mem := some m } }.advancePC ∧
        m.wf ∧ m.read s.ar = s.acc ∧ ∀ a, a ≠ s.ar → m.read a = s.mem.read a

/-- R154: the operand micro-step of every binary ALU form loads VR, from memory at AR for the direct and indirect forms
and from the zero-extended operand for the immediate ones, and stays in EXECUTE. -/
def Obligations.OperandMicroStepLoadsTheValueRegister : Prop :=
  ∀ (x : Operand24) (s : State), s.uc = 0 →
    (∀ p ∈ directArithmetic ++ directLogic ++ directDivision ++ indirectArithmetic ++ indirectLogic ++ indirectDivision,
      s.ar < s.cfg.n →
        exec (p.1 x) s = .next { s with
          vr := s.mem.read s.ar, uc := 1, out := { s.out with vr := some (s.mem.read s.ar) } }) ∧
    (∀ p ∈ immediateArithmetic ++ immediateLogic ++ immediateDivision,
      exec (p.1 x) s = .next { s with
        vr := BitVec.ofNat 32 x.toNat, uc := 1, out := { s.out with vr := some (BitVec.ofNat 32 x.toNat) } })

/-- R155, R156: the combine micro-step writes ACC with the operation of ACC and VR and advances; for the DIV and MOD
forms with VR = 0 it writes neither ACC nor PC nor VR, announces neither, and returns the error. The values of DIV, MOD,
AND and OR are the spec's decisions D8 and D9 (notes/assumptions/15.md and 16.md). -/
def Obligations.CombineMicroStepWritesTheAccumulator : Prop :=
  ∀ (x : Operand24) (s : State), s.uc = 1 →
    (∀ p ∈ directArithmetic ++ indirectArithmetic ++ immediateArithmetic ++ directLogic ++ indirectLogic ++
        immediateLogic,
      exec (p.1 x) s = .next { s with
        acc := p.2 s.acc s.vr, out := { s.out with acc := some (p.2 s.acc s.vr) } }.advancePC) ∧
    (∀ p ∈ directDivision ++ indirectDivision ++ immediateDivision,
      (s.vr ≠ 0#32 →
        exec (p.1 x) s = .next { s with
          acc := p.2 s.acc s.vr, out := { s.out with acc := some (p.2 s.acc s.vr) } }.advancePC) ∧
      (s.vr = 0#32 →
        ∃ t, exec (p.1 x) s = .next t ∧ t.acc = s.acc ∧ t.pc = s.pc ∧ t.vr = s.vr ∧ t.out.acc = s.out.acc ∧
          t.out.pc = s.out.pc ∧ t.out.result = .errorDivideByZero))

/-- R302: the divide-by-zero fault sets FLT, PH and UC, keeps everything else, announces no phase, and the call returns
the error; R303: no handler runs. The error phase and FLT are the spec's decision D10 (notes/assumptions/10.md). -/
def Obligations.DivideByZeroEntersTheErrorPhase : Prop :=
  ∀ (x : Operand24) (s : State), s.uc = 1 → s.vr = 0#32 →
    ∀ c ∈ [Instr.div, Instr.divi, Instr.divm, Instr.mod, Instr.modi, Instr.modm],
      exec (c x) s = .next { s with
        flt := .divideByZero, ph := .error, uc := 0, out := { s.out with result := .errorDivideByZero } }

/-- R204, R200: the unconditional jumps write PC with the reduced target and go back to FETCH, with no increment and no
end-of-memory check. One micro-step and the reduction of a target from memory are the spec's decisions D7, D4 and D5
(notes/assumptions/17.md, 14.md and 18.md). -/
def Obligations.UnconditionalJumpsWritePc : Prop :=
  ∀ (x : Operand24) (s : State), s.uc = 0 →
    (∀ c ∈ [Instr.jmp, Instr.jmpi], s.ar < s.cfg.n →
      exec (c x) s = .next { s with
        pc := s.targetAt s.ar, ph := .fetch, uc := 0,
        out := { s.out with pc := some (s.targetAt s.ar), phase := some .fetch } }) ∧
    exec (.jmpm x) s = .next { s with
      pc := s.directAddress x, ph := .fetch, uc := 0,
      out := { s.out with pc := some (s.directAddress x), phase := some .fetch } }

/-- R201, R202: the test micro-step of every conditional jump writes JF with its predicate on the signed accumulator and
stays in EXECUTE. -/
def Obligations.ConditionalJumpsTestTheAccumulator : Prop :=
  ∀ (x : Operand24) (s : State), s.uc = 0 →
    ∀ p ∈ directConditions ++ indirectConditions ++ immediateConditions,
      exec (p.1 x) s = .next { s with
        jf := p.2 s.acc.toInt, uc := 1, out := { s.out with jf := some (p.2 s.acc.toInt) } }

/-- R203: with JF set the resolution jumps and clears JF, without the end-of-memory check; with JF clear it advances. The
reduction of a target from memory is the spec's decision D5 (notes/assumptions/18.md). -/
def Obligations.ConditionalJumpsResolveByTheFlag : Prop :=
  ∀ (x : Operand24) (s : State), s.uc = 1 →
    (∀ p ∈ directConditions ++ indirectConditions ++ immediateConditions, s.jf = false →
      exec (p.1 x) s = .next s.advancePC) ∧
    (∀ p ∈ directConditions ++ indirectConditions, s.jf = true → s.ar < s.cfg.n →
      exec (p.1 x) s = .next { s with
        pc := s.targetAt s.ar, jf := false, ph := .fetch, uc := 0,
        out := { s.out with pc := some (s.targetAt s.ar), jf := some false, phase := some .fetch } }) ∧
    (∀ p ∈ immediateConditions, s.jf = true →
      exec (p.1 x) s = .next { s with
        pc := s.directAddress x, jf := false, ph := .fetch, uc := 0,
        out := { s.out with pc := some (s.directAddress x), jf := some false, phase := some .fetch } })

-- ---------------------------------------------------------------- whole instructions, from FETCH to their end

/-- R118, R120: HALT, fetched at any address, halts the core in four micro-steps, with PC where it was, and announces the
phase and Halted(Terminal). -/
def Obligations.HaltInstructionHalts : Prop :=
  ∀ (x : Operand24) (s : State), s.fetches (.halt x) →
    ∃ t, run 4 s = .next t ∧ t.arch = { s.resolvedAt s.pc with ph := .halt } ∧ t.out.phase = some .halt ∧
      t.out.haltedTerminal = true

/-- R116, R117, R119: NOP, a word of an unknown opcode, and BREAK take four micro-steps and change only what every
instruction does. The four are the spec's decision D7 (notes/assumptions/17.md). -/
def Obligations.NopUnknownAndBreakOnlyAdvance : Prop :=
  ∀ (x : Operand24) (s : State),
    (s.fetches (.nop x) → ∃ t, run 4 s = .next t ∧ t.arch = (s.resolvedAt s.pc).advanced ∧
      t.out.haltedBreak = false) ∧
    (s.atFetch → s.pc < s.cfg.n → opcField (s.mem.read s.pc) ∉ s.cfg.opcodeMap →
      ∃ t, run 4 s = .next t ∧ t.arch = (s.resolvedAt s.pc).advanced ∧ t.out.haltedBreak = false) ∧
    (s.fetches (.brk x) → ∃ t, run 4 s = .next t ∧ t.arch = (s.resolvedAt s.pc).advanced ∧
      t.out.haltedBreak = true)

/-- R160, R161, R162: the LOAD forms, whole. Their EXECUTE of one micro-step is the spec's decision D6, the reduction of a
negative pointer its D4 (notes/assumptions/17.md and 14.md). -/
def Obligations.LoadInstructionsLoad : Prop :=
  ∀ (x : Operand24) (s : State),
    (s.fetches (.load x) → ∃ t, run 4 s = .next t ∧
      t.arch = { s.resolvedAt (s.directAddress x) with acc := s.mem.read (s.directAddress x) }.advanced) ∧
    (s.fetches (.loadi x) → ∃ t, run 5 s = .next t ∧
      t.arch = { s.resolvedAt (s.indirectAddress x) with acc := s.mem.read (s.indirectAddress x) }.advanced) ∧
    (s.fetches (.loadm x) → ∃ t, run 4 s = .next t ∧
      t.arch = { s.resolvedAt s.pc with acc := BitVec.ofNat 32 x.toNat }.advanced)

/-- R170, R171: the STORE forms, whole. The instruction in IR is the word that was fetched, also where the store
overwrites it (R64). -/
def Obligations.StoreInstructionsStore : Prop :=
  ∀ (x : Operand24) (s : State), s.mem.wf →
    (s.fetches (.store x) → ∃ t, run 4 s = .next t ∧
      t.arch = { s.resolvedAt (s.directAddress x) with mem := t.mem }.advanced ∧
      t.mem.read (s.directAddress x) = s.acc ∧ (∀ a, a ≠ s.directAddress x → t.mem.read a = s.mem.read a) ∧
      t.mem.wf ∧ t.out.mem = some t.mem) ∧
    (s.fetches (.storei x) → ∃ t, run 5 s = .next t ∧
      t.arch = { s.resolvedAt (s.indirectAddress x) with mem := t.mem }.advanced ∧
      t.mem.read (s.indirectAddress x) = s.acc ∧ (∀ a, a ≠ s.indirectAddress x → t.mem.read a = s.mem.read a) ∧
      t.mem.wf ∧ t.out.mem = some t.mem)

/-- R175, R177, R178, R180, R181, R183: ADD, SUB and MULT, direct and immediate, whole: five micro-steps, the fourth
putting the operand into VR and announcing it, the fifth the wrapped result into ACC, announcing it, then the advance. -/
def Obligations.DirectAndImmediateArithmeticComputes : Prop :=
  ∀ (x : Operand24) (s : State),
    (∀ p ∈ directArithmetic, s.fetches (p.1 x) →
      (∃ u, run 4 s = .next u ∧ u.out.vr = some (s.mem.read (s.directAddress x)) ∧ u.pc = s.pc) ∧
      ∃ t, run 5 s = .next t ∧
        t.arch = { s.resolvedAt (s.directAddress x) with
          vr := s.mem.read (s.directAddress x), acc := p.2 s.acc (s.mem.read (s.directAddress x)) }.advanced ∧
        t.out.acc = some t.acc) ∧
    (∀ p ∈ immediateArithmetic, s.fetches (p.1 x) →
      (∃ u, run 4 s = .next u ∧ u.out.vr = some (BitVec.ofNat 32 x.toNat) ∧ u.pc = s.pc) ∧
      ∃ t, run 5 s = .next t ∧
        t.arch = { s.resolvedAt s.pc with
          vr := BitVec.ofNat 32 x.toNat, acc := p.2 s.acc (BitVec.ofNat 32 x.toNat) }.advanced ∧
        t.out.acc = some t.acc)

/-- R176, R179, R182, R190 to R195: the indirect arithmetic forms and every AND and OR form, whole. The reduction of a
negative pointer and bitwise AND and OR are the spec's decisions D4 and D9 (notes/assumptions/14.md and 16.md). -/
def Obligations.IndirectArithmeticAndLogicCompute : Prop :=
  ∀ (x : Operand24) (s : State),
    (∀ p ∈ indirectArithmetic ++ indirectLogic, s.fetches (p.1 x) → ∃ t, run 6 s = .next t ∧
      t.arch = { s.resolvedAt (s.indirectAddress x) with
        vr := s.mem.read (s.indirectAddress x), acc := p.2 s.acc (s.mem.read (s.indirectAddress x)) }.advanced) ∧
    (∀ p ∈ directLogic, s.fetches (p.1 x) → ∃ t, run 5 s = .next t ∧
      t.arch = { s.resolvedAt (s.directAddress x) with
        vr := s.mem.read (s.directAddress x), acc := p.2 s.acc (s.mem.read (s.directAddress x)) }.advanced) ∧
    (∀ p ∈ immediateLogic, s.fetches (p.1 x) → ∃ t, run 5 s = .next t ∧
      t.arch = { s.resolvedAt s.pc with
        vr := BitVec.ofNat 32 x.toNat, acc := p.2 s.acc (BitVec.ofNat 32 x.toNat) }.advanced)

/-- R184 to R189: the DIV and MOD forms, whole, with a divisor other than zero. The quotient and remainder are the spec's
decision D8, the reduction of a negative pointer its D4 (notes/assumptions/15.md and 14.md). -/
def Obligations.DivisionInstructionsDivide : Prop :=
  ∀ (x : Operand24) (s : State),
    (∀ p ∈ directDivision, s.fetches (p.1 x) → s.mem.read (s.directAddress x) ≠ 0#32 → ∃ t, run 5 s = .next t ∧
      t.arch = { s.resolvedAt (s.directAddress x) with
        vr := s.mem.read (s.directAddress x), acc := p.2 s.acc (s.mem.read (s.directAddress x)) }.advanced) ∧
    (∀ p ∈ indirectDivision, s.fetches (p.1 x) → s.mem.read (s.indirectAddress x) ≠ 0#32 → ∃ t, run 6 s = .next t ∧
      t.arch = { s.resolvedAt (s.indirectAddress x) with
        vr := s.mem.read (s.indirectAddress x), acc := p.2 s.acc (s.mem.read (s.indirectAddress x)) }.advanced) ∧
    (∀ p ∈ immediateDivision, s.fetches (p.1 x) → x ≠ 0#24 → ∃ t, run 5 s = .next t ∧
      t.arch = { s.resolvedAt s.pc with
        vr := BitVec.ofNat 32 x.toNat, acc := p.2 s.acc (BitVec.ofNat 32 x.toNat) }.advanced)

/-- R156, R301, R302: the DIV and MOD forms, whole, with a divisor of zero: the fault, with ACC and PC as they were, VR
zero, and the instruction still in IR. The error phase is the spec's decision D10, the reduction of a negative pointer its
D4 (notes/assumptions/10.md and 14.md). -/
def Obligations.DivisionByZeroFaults : Prop :=
  ∀ (x : Operand24) (s : State),
    (∀ p ∈ directDivision, s.fetches (p.1 x) → s.mem.read (s.directAddress x) = 0#32 → ∃ t, run 5 s = .next t ∧
      t.arch = { s.resolvedAt (s.directAddress x) with vr := 0, ph := .error, flt := .divideByZero } ∧
      t.out.result = .errorDivideByZero ∧ t.out.acc = none) ∧
    (∀ p ∈ indirectDivision, s.fetches (p.1 x) → s.mem.read (s.indirectAddress x) = 0#32 → ∃ t, run 6 s = .next t ∧
      t.arch = { s.resolvedAt (s.indirectAddress x) with vr := 0, ph := .error, flt := .divideByZero } ∧
      t.out.result = .errorDivideByZero ∧ t.out.acc = none) ∧
    (∀ p ∈ immediateDivision, s.fetches (p.1 0) → ∃ t, run 5 s = .next t ∧
      t.arch = { s.resolvedAt s.pc with vr := 0, ph := .error, flt := .divideByZero } ∧
      t.out.result = .errorDivideByZero ∧ t.out.acc = none)

/-- R196: NOT, whole: four micro-steps, every bit of ACC complemented. -/
def Obligations.NotInstructionComplements : Prop :=
  ∀ (x : Operand24) (s : State), s.fetches (.not x) →
    ∃ t, run 4 s = .next t ∧
      t.arch = { s.resolvedAt s.pc with acc := BitVec.ofInt 32 (-s.acc.toInt - 1) }.advanced ∧
      t.out.acc = some t.acc ∧ ∀ k, k < 32 → t.acc.getLsbD k = !s.acc.getLsbD k

/-- R205, R206, R207: the unconditional jumps, whole. JMP a goes to the address stored at a. One micro-step and the
reductions are the spec's decisions D7, D4 and D5 (notes/assumptions/17.md, 14.md and 18.md). -/
def Obligations.JumpInstructionsJump : Prop :=
  ∀ (x : Operand24) (s : State),
    (s.fetches (.jmp x) → ∃ t, run 4 s = .next t ∧
      t.arch = { s.resolvedAt (s.directAddress x) with pc := s.targetAt (s.directAddress x), ph := .fetch }) ∧
    (s.fetches (.jmpi x) → ∃ t, run 5 s = .next t ∧
      t.arch = { s.resolvedAt (s.indirectAddress x) with pc := s.targetAt (s.indirectAddress x), ph := .fetch }) ∧
    (s.fetches (.jmpm x) → ∃ t, run 4 s = .next t ∧
      t.arch = { s.resolvedAt s.pc with pc := s.directAddress x, ph := .fetch })

/-- R210 to R227: the conditional jumps, whole: taken exactly when the predicate holds of the signed accumulator, JF
false at the end either way. The reductions are the spec's decisions D4 and D5 (notes/assumptions/14.md and 18.md). -/
def Obligations.ConditionalJumpInstructionsBranch : Prop :=
  ∀ (x : Operand24) (s : State),
    (∀ p ∈ directConditions, s.fetches (p.1 x) → ∃ t, run 5 s = .next t ∧
      t.arch = if p.2 s.acc.toInt then
          { s.resolvedAt (s.directAddress x) with pc := s.targetAt (s.directAddress x), jf := false, ph := .fetch }
        else { s.resolvedAt (s.directAddress x) with jf := false }.advanced) ∧
    (∀ p ∈ indirectConditions, s.fetches (p.1 x) → ∃ t, run 6 s = .next t ∧
      t.arch = if p.2 s.acc.toInt then
          { s.resolvedAt (s.indirectAddress x) with
            pc := s.targetAt (s.indirectAddress x), jf := false, ph := .fetch }
        else { s.resolvedAt (s.indirectAddress x) with jf := false }.advanced) ∧
    (∀ p ∈ immediateConditions, s.fetches (p.1 x) → ∃ t, run 5 s = .next t ∧
      t.arch = if p.2 s.acc.toInt then
          { s.resolvedAt s.pc with pc := s.directAddress x, jf := false, ph := .fetch }
        else { s.resolvedAt s.pc with jf := false }.advanced)

/-- R63, R64: a store that overwrites the next instruction is seen by the next fetch. -/
def Obligations.NextFetchSeesTheStoredWord : Prop :=
  ∀ (x : Operand24) (s : State), s.mem.wf → s.fetches (.store x) → s.directAddress x = s.pc + 1 →
    ∃ t, run 4 s = .next t ∧ t.ir = s.mem.read s.pc ∧ ∃ u, run 6 s = .next u ∧ u.ir = s.acc ∧ u.ph = .indirect

-- ---------------------------------------------------------------- the machine as a whole

/-- The reset state satisfies the invariant. Its configuration is the model's choice (notes/assumptions/1.md and 2.md). -/
def Obligations.InvariantHoldsAtReset : Prop := State.reset.Inv ∧ State.reset.AddressResolved

/-- R24, R25, R26, R29, R123: every step keeps the invariant, from every state that has it. -/
def Obligations.StepKeepsTheInvariant : Prop :=
  ∀ s t : State, s.Inv → step s = .next t → t.Inv

/-- R51, R122, R123: from every state that has the invariant, a step answers a next state: it neither faults nor is
refused. -/
def Obligations.StepAlwaysAnswersANextState : Prop :=
  ∀ s : State, s.Inv → ∃ t, step s = .next t

/-- R350, R352, R354: the host operations keep the invariant, and building a core establishes it. -/
def Obligations.HostOperationsKeepTheInvariant : Prop :=
  (∀ s : State, s.Inv → s.hostReset.Inv) ∧
  (∀ (s t : State) (words : List Word), s.Inv → loadMemory words s = .next t → t.Inv) ∧
  (∀ (c : Config) (t : State), construct c = .next t → t.Inv)

/-- R103, R105, R106, R108, R79: AR holds the address the phase and the addressing class give it, and every step keeps
it so. -/
def Obligations.AddressRegisterFollowsThePhase : Prop :=
  ∀ s t : State, s.Inv → s.AddressResolved → step s = .next t → t.AddressResolved

/-- R21, R22, R23: which micro-steps write ACC, VR and IR. -/
def Obligations.DataRegistersHaveOnlyTheirWriters : Prop :=
  ∀ s t : State, step s = .next t →
    (t.acc ≠ s.acc → s.ph = .execute ∧
      ((s.uc = 0 ∧ ∃ x, s.current ∈ [Instr.load x, Instr.loadi x, Instr.loadm x, Instr.not x]) ∨
       (s.uc = 1 ∧ (execGroup s.current = .alu ∨ execGroup s.current = .divide)))) ∧
    (t.vr ≠ s.vr → s.ph = .execute ∧ s.uc = 0 ∧ (execGroup s.current = .alu ∨ execGroup s.current = .divide)) ∧
    (t.ir ≠ s.ir → s.ph = .fetch ∧ s.uc = 1)

/-- R24, R25, R110: PC changes only by an advance or a jump, never in FETCH or INDIRECT; AR changes only in the first
FETCH micro-step and in the INDIRECT micro-steps of the direct and indirect forms. -/
def Obligations.AddressesHaveOnlyTheirWriters : Prop :=
  ∀ s t : State, step s = .next t →
    (s.ph = .fetch ∨ s.ph = .indirect → t.pc = s.pc) ∧
    (t.pc ≠ s.pc → s.ph = .execute ∧ t.ph = .fetch ∧ ((t.pc = s.pc + 1 ∧ t.pc < s.cfg.n) ∨ s.takesJump)) ∧
    (t.ar ≠ s.ar → (s.ph = .fetch ∧ s.uc = 0) ∨
      (s.ph = .indirect ∧ (addrClass s.current = .direct ∨ addrClass s.current = .indirect)))

/-- R26, R29, R31, R9: JF changes only in a conditional jump, FLT only where a DIV or MOD form finds VR = 0, and the
parameters never. -/
def Obligations.FlagAndFaultHaveOnlyTheirWriters : Prop :=
  ∀ s t : State, step s = .next t →
    (t.jf ≠ s.jf → s.ph = .execute ∧ execGroup s.current = .condJump) ∧
    (t.flt ≠ s.flt → t.flt = .divideByZero ∧ t.ph = .error ∧ s.ph = .execute ∧ s.uc = 1 ∧ s.vr = 0#32 ∧
      execGroup s.current = .divide) ∧
    t.cfg = s.cfg

/-- R32, R52: a step changes memory only in STORE and STOREI, only at the word at AR, to ACC (where memory has the
canonical form, notes/assumptions/3.md), and announces it. -/
def Obligations.OnlyStoresChangeMemory : Prop :=
  ∀ s t : State, step s = .next t → t.mem ≠ s.mem →
    s.ph = .execute ∧ (∃ x, s.current = .store x ∨ s.current = .storei x) ∧
    (∀ a, a ≠ s.ar → t.mem.read a = s.mem.read a) ∧ (s.mem.wf → t.mem.read s.ar = s.acc) ∧ t.out.mem = some t.mem

/-- R114, R115, R102: every change of a reported register, of memory and of the phase is announced with its new value,
what is announced is the value after the micro-step, and Halted(Terminal) is announced exactly on entering HALT. The
batch's form is the model's (notes/assumptions/4.md); the silence on entering ERROR is the spec's decision D10, and that
BREAK at the last address announces both Halted its D24 (notes/assumptions/10.md and 20.md). -/
def Obligations.EveryChangeIsAnnounced : Prop :=
  ∀ s t : State, step s = .next t →
    ((t.acc ≠ s.acc → t.out.acc = some t.acc) ∧ ∀ v, t.out.acc = some v → t.acc = v) ∧
    ((t.vr ≠ s.vr → t.out.vr = some t.vr) ∧ ∀ v, t.out.vr = some v → t.vr = v) ∧
    ((t.ir ≠ s.ir → t.out.ir = some t.ir) ∧ ∀ v, t.out.ir = some v → t.ir = v) ∧
    ((t.pc ≠ s.pc → t.out.pc = some t.pc) ∧ ∀ v, t.out.pc = some v → t.pc = v) ∧
    ((t.ar ≠ s.ar → t.out.ar = some t.ar) ∧ ∀ v, t.out.ar = some v → t.ar = v) ∧
    ((t.jf ≠ s.jf → t.out.jf = some t.jf) ∧ ∀ v, t.out.jf = some v → t.jf = v) ∧
    ((t.mem ≠ s.mem → t.out.mem = some t.mem) ∧ ∀ m, t.out.mem = some m → t.mem = m) ∧
    ((t.ph ≠ s.ph → t.ph ≠ .error → t.out.phase = some t.ph) ∧
      ∀ p, t.out.phase = some p → t.ph = p ∧ p ≠ s.ph ∧ p ≠ .error) ∧
    (t.out.haltedTerminal = true ↔ t.ph = .halt ∧ s.ph ≠ .halt) ∧
    (t.out.haltedBreak = true ↔ s.ph = .execute ∧ ∃ x, s.current = .brk x)

/-- R121: a micro-step of FETCH, INDIRECT or EXECUTE emits exactly one Trace, with a text drawn anew; HALT and ERROR emit
none. The counter of draws is the model's (notes/assumptions/5.md); that there is one Trace is the spec's decision
D13. -/
def Obligations.EachMicroStepEmitsOneTrace : Prop :=
  ∀ s t : State, step s = .next t →
    (s.ph = .fetch ∨ s.ph = .indirect ∨ s.ph = .execute →
      t.out.trace = some s.traceDraws ∧ t.traceDraws = s.traceDraws + 1) ∧
    (s.ph = .halt ∨ s.ph = .error → t.out.trace = none ∧ t.traceDraws = s.traceDraws)

/-- R122: `step()` returns the error exactly in the micro-step that raises the fault and in the error phase. The error
phase is the spec's decision D10, and that a step in it returns the error again its D12 (notes/assumptions/10.md and
19.md). -/
def Obligations.StepReturnsTheErrorExactlyInAFault : Prop :=
  ∀ s t : State, step s = .next t →
    (t.out.result = .errorDivideByZero ↔
      s.ph = .error ∨ (s.ph = .execute ∧ s.uc = 1 ∧ s.vr = 0#32 ∧ execGroup s.current = .divide))

/-- R76: for NOP, HALT, BREAK, NOT and unknown opcodes, two words that differ only in bits 23:0 execute identically. -/
def Obligations.IgnoredOperandBitsChangeNothing : Prop :=
  ∀ (s t : State) (w : Word), s.ph = .indirect ∨ s.ph = .execute → addrClass s.current = .none →
    opcField w = opcField s.ir → step s = .next t → step { s with ir := w } = .next { t with ir := w }

/-- R120: every instruction takes exactly the micro-steps of the table. The counts of the loads, NOP, BREAK and the jumps
are the spec's decisions D6 and D7 (notes/assumptions/17.md). -/
def Obligations.InstructionsTakeTheTablesMicroSteps : Prop :=
  ∀ x : Operand24,
    (∀ c ∈ [Instr.nop, Instr.halt, Instr.brk, Instr.not, Instr.load, Instr.store, Instr.jmp, Instr.loadm, Instr.jmpm],
      Takes (c x) 4) ∧
    (∀ c ∈ [Instr.loadi, Instr.storei, Instr.jmpi], Takes (c x) 5) ∧
    (∀ p ∈ directArithmetic ++ directLogic ++ directDivision ++ immediateArithmetic ++ immediateLogic ++
        immediateDivision, Takes (p.1 x) 5) ∧
    (∀ p ∈ indirectArithmetic ++ indirectLogic ++ indirectDivision, Takes (p.1 x) 6) ∧
    (∀ p ∈ directConditions ++ immediateConditions, Takes (p.1 x) 5) ∧
    (∀ p ∈ indirectConditions, Takes (p.1 x) 6)

/-- V-P1 (95_test_vectors.md), R111, R120: a run in which no jump is taken reaches HALT or ERROR within 6·N
micro-steps. -/
def Obligations.RunWithoutJumpsStops : Prop :=
  ∀ s : State, s.Inv → s.atFetch →
    (∀ k t, k < 6 * s.cfg.n → run k s = .next t → ¬ t.takesJump) →
    ∃ k t, k ≤ 6 * s.cfg.n ∧ run k s = .next t ∧ (t.halted ∨ t.faulted)
end

