-- ==== Sys2Proof/Laws/Memory.lean ====
section
/-!
SUPPORT. Sys2Proof/Laws/Memory.lean: every operation on memory keeps the canonical form, a read after a write gives the
word written or the word that was there, and a memory is determined by what its addresses read as.
-/

namespace Sys2Proof.Machine

@[simp] theorem Memory.read_nil (a : Nat) : Memory.read [] a = Memory.unlisted := rfl

theorem Memory.read_cons (b : Nat) (v : Word) (m : Memory) (a : Nat) :
    Memory.read ((b, v) :: m) a = if a = b then v else m.read a := rfl

/-- An address below every listed one is unlisted. -/
theorem Memory.read_of_lt {m : Memory} {a : Nat} (h : ∀ c ∈ m, a < c.1) : m.read a = Memory.unlisted := by
  induction m with
  | nil => rfl
  | cons c m ih =>
    have hc := h c (by simp)
    rw [Memory.read_cons, if_neg (by omega)]
    exact ih fun d hd => h d (by simp [hd])

/-- Every cell of a consed memory is the new one or an old one. -/
theorem Memory.mem_consCell {a : Nat} {v : Word} {m : Memory} {c : Cell} (h : c ∈ Memory.consCell a v m) :
    (c = (a, v) ∧ v ≠ Memory.unlisted) ∨ c ∈ m := by
  unfold Memory.consCell at h
  split at h
  · exact .inr h
  · rcases List.mem_cons.1 h with h | h
    · exact .inl ⟨h, ‹_›⟩
    · exact .inr h

theorem Memory.consCell_wf {a : Nat} {v : Word} {m : Memory} (hm : m.wf) (h : ∀ c ∈ m, a < c.1) :
    (Memory.consCell a v m).wf := by
  unfold Memory.consCell
  split
  · exact hm
  · exact ⟨List.pairwise_cons.2 ⟨h, hm.1⟩, by simpa using ⟨‹_›, fun x y => hm.2 (x, y)⟩⟩

theorem Memory.read_consCell_same {a : Nat} {v : Word} {m : Memory} (h : ∀ c ∈ m, a < c.1) :
    (Memory.consCell a v m).read a = v := by
  unfold Memory.consCell
  split
  · rw [Memory.read_of_lt h, ‹v = _›]
  · simp [Memory.read_cons]

theorem Memory.read_consCell_other {a b : Nat} {v : Word} {m : Memory} (h : b ≠ a) :
    (Memory.consCell a v m).read b = m.read b := by
  unfold Memory.consCell
  split
  · rfl
  · simp [Memory.read_cons, h]

/-- Every cell of a written memory is the written one or an old one. -/
theorem Memory.mem_write {m : Memory} {a : Nat} {v : Word} {c : Cell} (h : c ∈ m.write a v) :
    (c = (a, v) ∧ v ≠ Memory.unlisted) ∨ c ∈ m := by
  induction m with
  | nil => exact Memory.mem_consCell h
  | cons d m ih =>
    unfold Memory.write at h
    split at h
    · exact Memory.mem_consCell h
    · split at h
      · exact (Memory.mem_consCell h).imp_right fun h => by simp [h]
      · rcases List.mem_cons.1 h with h | h
        · exact .inr (by simp [h])
        · exact (ih h).imp_right fun h => by simp [h]

/-- Writing a word keeps the canonical form. -/
theorem Memory.write_wf {m : Memory} (hm : m.wf) (a : Nat) (v : Word) : (m.write a v).wf := by
  induction m with
  | nil => exact Memory.consCell_wf hm (by simp)
  | cons d m ih =>
    have hd := List.pairwise_cons.1 hm.1
    have hm' : Memory.wf m := ⟨hd.2, fun c hc => hm.2 c (by simp [hc])⟩
    unfold Memory.write
    split
    · refine Memory.consCell_wf hm fun c hc => ?_
      rcases List.mem_cons.1 hc with rfl | hc
      · assumption
      · have := hd.1 c hc; omega
    · split
      · subst a; exact Memory.consCell_wf hm' hd.1
      · refine ⟨List.pairwise_cons.2 ⟨fun c hc => ?_, (ih hm').1⟩, fun c hc => ?_⟩
        · rcases Memory.mem_write hc with ⟨rfl, -⟩ | hc
          · simp only; omega
          · exact hd.1 c hc
        · rcases List.mem_cons.1 hc with rfl | hc
          · exact hm.2 _ (by simp)
          · exact (ih hm').2 c hc

/-- Writing at an existing address keeps the memory within the addresses that exist. -/
theorem Memory.write_bounded {m : Memory} {n a : Nat} (hm : m.bounded n) (ha : a < n) (v : Word) :
    (m.write a v).bounded n := fun c hc => by
  rcases Memory.mem_write hc with ⟨rfl, -⟩ | hc
  · exact ha
  · exact hm c hc

/-- A read of the written address gives the written word. -/
@[simp] theorem Memory.read_write_same {m : Memory} (hm : m.wf) (a : Nat) (v : Word) : (m.write a v).read a = v := by
  induction m with
  | nil => exact Memory.read_consCell_same (by simp)
  | cons d m ih =>
    have hd := List.pairwise_cons.1 hm.1
    have hm' : Memory.wf m := ⟨hd.2, fun c hc => hm.2 c (by simp [hc])⟩
    unfold Memory.write
    split
    · refine Memory.read_consCell_same fun c hc => ?_
      rcases List.mem_cons.1 hc with rfl | hc
      · assumption
      · have := hd.1 c hc; omega
    · split
      · subst a; exact Memory.read_consCell_same hd.1
      · rw [Memory.read_cons, if_neg ‹_›, ih hm']

/-- A read of any other address gives what it gave before. -/
theorem Memory.read_write_other (m : Memory) {a b : Nat} (h : b ≠ a) (v : Word) : (m.write a v).read b = m.read b := by
  induction m with
  | nil => exact Memory.read_consCell_other h
  | cons d m ih =>
    unfold Memory.write
    split
    · exact Memory.read_consCell_other h
    · split
      · rw [Memory.read_consCell_other h, Memory.read_cons, if_neg (by omega)]
      · rw [Memory.read_cons, ih, Memory.read_cons]

/-- Every cell of an image stands at one of its addresses. -/
theorem Memory.mem_ofWords {a : Nat} {ws : List Word} {c : Cell} (h : c ∈ Memory.ofWords a ws) :
    a ≤ c.1 ∧ c.1 < a + ws.length := by
  induction ws generalizing a with
  | nil => simp [Memory.ofWords] at h
  | cons w ws ih =>
    rcases Memory.mem_consCell h with ⟨rfl, -⟩ | h
    · simp
    · have := ih h
      simp only [List.length_cons]; omega

/-- A loaded image is in canonical form. -/
theorem Memory.ofWords_wf (a : Nat) (ws : List Word) : (Memory.ofWords a ws).wf := by
  induction ws generalizing a with
  | nil => exact ⟨List.Pairwise.nil, by simp [Memory.ofWords]⟩
  | cons w ws ih => exact Memory.consCell_wf (ih _) fun c hc => (Memory.mem_ofWords hc).1

/-- A loaded image lists only its own addresses. -/
theorem Memory.ofWords_bounded (ws : List Word) : (Memory.ofWords 0 ws).bounded ws.length := fun c hc => by
  have := Memory.mem_ofWords hc; omega

/-- A loaded image reads as its words. -/
theorem Memory.read_ofWords (a : Nat) (ws : List Word) (k : Nat) :
    (Memory.ofWords a ws).read (a + k) = ws[k]?.getD Memory.unlisted := by
  induction ws generalizing a k with
  | nil => simp [Memory.ofWords]
  | cons w ws ih =>
    cases k with
    | zero => simpa [Memory.ofWords] using Memory.read_consCell_same fun c hc => (Memory.mem_ofWords hc).1
    | succ k =>
      rw [Memory.ofWords, Memory.read_consCell_other (by omega)]
      simpa [Nat.add_assoc, Nat.add_comm 1 k] using ih (a + 1) k

end Sys2Proof.Machine
end

