-- ==== Sys2Proof/Laws/State.lean ====
section
/-!
SUPPORT. Sys2Proof/Laws/State.lean: what each update of the state does to each field, so that no proof unfolds a record
update.
-/

namespace Sys2Proof.Machine

variable (s : State)

@[simp] theorem State.setAcc_cfg (v : Word) : (s.setAcc v).cfg = s.cfg := rfl
@[simp] theorem State.setAcc_acc (v : Word) : (s.setAcc v).acc = v := rfl
@[simp] theorem State.setAcc_vr (v : Word) : (s.setAcc v).vr = s.vr := rfl
@[simp] theorem State.setAcc_ir (v : Word) : (s.setAcc v).ir = s.ir := rfl
@[simp] theorem State.setAcc_pc (v : Word) : (s.setAcc v).pc = s.pc := rfl
@[simp] theorem State.setAcc_ar (v : Word) : (s.setAcc v).ar = s.ar := rfl
@[simp] theorem State.setAcc_jf (v : Word) : (s.setAcc v).jf = s.jf := rfl
@[simp] theorem State.setAcc_uc (v : Word) : (s.setAcc v).uc = s.uc := rfl
@[simp] theorem State.setAcc_ph (v : Word) : (s.setAcc v).ph = s.ph := rfl
@[simp] theorem State.setAcc_flt (v : Word) : (s.setAcc v).flt = s.flt := rfl
@[simp] theorem State.setAcc_mem (v : Word) : (s.setAcc v).mem = s.mem := rfl
@[simp] theorem State.setAcc_out (v : Word) : (s.setAcc v).out = { s.out with acc := some v } := rfl
@[simp] theorem State.setAcc_traceDraws (v : Word) : (s.setAcc v).traceDraws = s.traceDraws := rfl

@[simp] theorem State.setVr_cfg (v : Word) : (s.setVr v).cfg = s.cfg := rfl
@[simp] theorem State.setVr_acc (v : Word) : (s.setVr v).acc = s.acc := rfl
@[simp] theorem State.setVr_vr (v : Word) : (s.setVr v).vr = v := rfl
@[simp] theorem State.setVr_ir (v : Word) : (s.setVr v).ir = s.ir := rfl
@[simp] theorem State.setVr_pc (v : Word) : (s.setVr v).pc = s.pc := rfl
@[simp] theorem State.setVr_ar (v : Word) : (s.setVr v).ar = s.ar := rfl
@[simp] theorem State.setVr_jf (v : Word) : (s.setVr v).jf = s.jf := rfl
@[simp] theorem State.setVr_uc (v : Word) : (s.setVr v).uc = s.uc := rfl
@[simp] theorem State.setVr_ph (v : Word) : (s.setVr v).ph = s.ph := rfl
@[simp] theorem State.setVr_flt (v : Word) : (s.setVr v).flt = s.flt := rfl
@[simp] theorem State.setVr_mem (v : Word) : (s.setVr v).mem = s.mem := rfl
@[simp] theorem State.setVr_out (v : Word) : (s.setVr v).out = { s.out with vr := some v } := rfl
@[simp] theorem State.setVr_traceDraws (v : Word) : (s.setVr v).traceDraws = s.traceDraws := rfl

@[simp] theorem State.setIr_cfg (v : Word) : (s.setIr v).cfg = s.cfg := rfl
@[simp] theorem State.setIr_acc (v : Word) : (s.setIr v).acc = s.acc := rfl
@[simp] theorem State.setIr_vr (v : Word) : (s.setIr v).vr = s.vr := rfl
@[simp] theorem State.setIr_ir (v : Word) : (s.setIr v).ir = v := rfl
@[simp] theorem State.setIr_pc (v : Word) : (s.setIr v).pc = s.pc := rfl
@[simp] theorem State.setIr_ar (v : Word) : (s.setIr v).ar = s.ar := rfl
@[simp] theorem State.setIr_jf (v : Word) : (s.setIr v).jf = s.jf := rfl
@[simp] theorem State.setIr_uc (v : Word) : (s.setIr v).uc = s.uc := rfl
@[simp] theorem State.setIr_ph (v : Word) : (s.setIr v).ph = s.ph := rfl
@[simp] theorem State.setIr_flt (v : Word) : (s.setIr v).flt = s.flt := rfl
@[simp] theorem State.setIr_mem (v : Word) : (s.setIr v).mem = s.mem := rfl
@[simp] theorem State.setIr_out (v : Word) : (s.setIr v).out = { s.out with ir := some v } := rfl
@[simp] theorem State.setIr_traceDraws (v : Word) : (s.setIr v).traceDraws = s.traceDraws := rfl

@[simp] theorem State.setPc_cfg (v : Nat) : (s.setPc v).cfg = s.cfg := rfl
@[simp] theorem State.setPc_acc (v : Nat) : (s.setPc v).acc = s.acc := rfl
@[simp] theorem State.setPc_vr (v : Nat) : (s.setPc v).vr = s.vr := rfl
@[simp] theorem State.setPc_ir (v : Nat) : (s.setPc v).ir = s.ir := rfl
@[simp] theorem State.setPc_pc (v : Nat) : (s.setPc v).pc = v := rfl
@[simp] theorem State.setPc_ar (v : Nat) : (s.setPc v).ar = s.ar := rfl
@[simp] theorem State.setPc_jf (v : Nat) : (s.setPc v).jf = s.jf := rfl
@[simp] theorem State.setPc_uc (v : Nat) : (s.setPc v).uc = s.uc := rfl
@[simp] theorem State.setPc_ph (v : Nat) : (s.setPc v).ph = s.ph := rfl
@[simp] theorem State.setPc_flt (v : Nat) : (s.setPc v).flt = s.flt := rfl
@[simp] theorem State.setPc_mem (v : Nat) : (s.setPc v).mem = s.mem := rfl
@[simp] theorem State.setPc_out (v : Nat) : (s.setPc v).out = { s.out with pc := some v } := rfl
@[simp] theorem State.setPc_traceDraws (v : Nat) : (s.setPc v).traceDraws = s.traceDraws := rfl

@[simp] theorem State.setAr_cfg (v : Nat) : (s.setAr v).cfg = s.cfg := rfl
@[simp] theorem State.setAr_acc (v : Nat) : (s.setAr v).acc = s.acc := rfl
@[simp] theorem State.setAr_vr (v : Nat) : (s.setAr v).vr = s.vr := rfl
@[simp] theorem State.setAr_ir (v : Nat) : (s.setAr v).ir = s.ir := rfl
@[simp] theorem State.setAr_pc (v : Nat) : (s.setAr v).pc = s.pc := rfl
@[simp] theorem State.setAr_ar (v : Nat) : (s.setAr v).ar = v := rfl
@[simp] theorem State.setAr_jf (v : Nat) : (s.setAr v).jf = s.jf := rfl
@[simp] theorem State.setAr_uc (v : Nat) : (s.setAr v).uc = s.uc := rfl
@[simp] theorem State.setAr_ph (v : Nat) : (s.setAr v).ph = s.ph := rfl
@[simp] theorem State.setAr_flt (v : Nat) : (s.setAr v).flt = s.flt := rfl
@[simp] theorem State.setAr_mem (v : Nat) : (s.setAr v).mem = s.mem := rfl
@[simp] theorem State.setAr_out (v : Nat) : (s.setAr v).out = { s.out with ar := some v } := rfl
@[simp] theorem State.setAr_traceDraws (v : Nat) : (s.setAr v).traceDraws = s.traceDraws := rfl

@[simp] theorem State.setJf_cfg (v : Bool) : (s.setJf v).cfg = s.cfg := rfl
@[simp] theorem State.setJf_acc (v : Bool) : (s.setJf v).acc = s.acc := rfl
@[simp] theorem State.setJf_vr (v : Bool) : (s.setJf v).vr = s.vr := rfl
@[simp] theorem State.setJf_ir (v : Bool) : (s.setJf v).ir = s.ir := rfl
@[simp] theorem State.setJf_pc (v : Bool) : (s.setJf v).pc = s.pc := rfl
@[simp] theorem State.setJf_ar (v : Bool) : (s.setJf v).ar = s.ar := rfl
@[simp] theorem State.setJf_jf (v : Bool) : (s.setJf v).jf = v := rfl
@[simp] theorem State.setJf_uc (v : Bool) : (s.setJf v).uc = s.uc := rfl
@[simp] theorem State.setJf_ph (v : Bool) : (s.setJf v).ph = s.ph := rfl
@[simp] theorem State.setJf_flt (v : Bool) : (s.setJf v).flt = s.flt := rfl
@[simp] theorem State.setJf_mem (v : Bool) : (s.setJf v).mem = s.mem := rfl
@[simp] theorem State.setJf_out (v : Bool) : (s.setJf v).out = { s.out with jf := some v } := rfl
@[simp] theorem State.setJf_traceDraws (v : Bool) : (s.setJf v).traceDraws = s.traceDraws := rfl

@[simp] theorem State.setWord_cfg (a : Nat) (v : Word) : (s.setWord a v).cfg = s.cfg := rfl
@[simp] theorem State.setWord_acc (a : Nat) (v : Word) : (s.setWord a v).acc = s.acc := rfl
@[simp] theorem State.setWord_vr (a : Nat) (v : Word) : (s.setWord a v).vr = s.vr := rfl
@[simp] theorem State.setWord_ir (a : Nat) (v : Word) : (s.setWord a v).ir = s.ir := rfl
@[simp] theorem State.setWord_pc (a : Nat) (v : Word) : (s.setWord a v).pc = s.pc := rfl
@[simp] theorem State.setWord_ar (a : Nat) (v : Word) : (s.setWord a v).ar = s.ar := rfl
@[simp] theorem State.setWord_jf (a : Nat) (v : Word) : (s.setWord a v).jf = s.jf := rfl
@[simp] theorem State.setWord_uc (a : Nat) (v : Word) : (s.setWord a v).uc = s.uc := rfl
@[simp] theorem State.setWord_ph (a : Nat) (v : Word) : (s.setWord a v).ph = s.ph := rfl
@[simp] theorem State.setWord_flt (a : Nat) (v : Word) : (s.setWord a v).flt = s.flt := rfl
@[simp] theorem State.setWord_mem (a : Nat) (v : Word) : (s.setWord a v).mem = s.mem.write a v := rfl
@[simp] theorem State.setWord_out (a : Nat) (v : Word) : (s.setWord a v).out = { s.out with mem := some (s.mem.write a v) } := rfl
@[simp] theorem State.setWord_traceDraws (a : Nat) (v : Word) : (s.setWord a v).traceDraws = s.traceDraws := rfl

@[simp] theorem State.stayInPhase_cfg : s.stayInPhase.cfg = s.cfg := rfl
@[simp] theorem State.stayInPhase_acc : s.stayInPhase.acc = s.acc := rfl
@[simp] theorem State.stayInPhase_vr : s.stayInPhase.vr = s.vr := rfl
@[simp] theorem State.stayInPhase_ir : s.stayInPhase.ir = s.ir := rfl
@[simp] theorem State.stayInPhase_pc : s.stayInPhase.pc = s.pc := rfl
@[simp] theorem State.stayInPhase_ar : s.stayInPhase.ar = s.ar := rfl
@[simp] theorem State.stayInPhase_jf : s.stayInPhase.jf = s.jf := rfl
@[simp] theorem State.stayInPhase_uc : s.stayInPhase.uc = 1 := rfl
@[simp] theorem State.stayInPhase_ph : s.stayInPhase.ph = s.ph := rfl
@[simp] theorem State.stayInPhase_flt : s.stayInPhase.flt = s.flt := rfl
@[simp] theorem State.stayInPhase_mem : s.stayInPhase.mem = s.mem := rfl
@[simp] theorem State.stayInPhase_out : s.stayInPhase.out = s.out := rfl
@[simp] theorem State.stayInPhase_traceDraws : s.stayInPhase.traceDraws = s.traceDraws := rfl

@[simp] theorem State.enter_cfg (p : Phase) : (s.enter p).cfg = s.cfg := rfl
@[simp] theorem State.enter_acc (p : Phase) : (s.enter p).acc = s.acc := rfl
@[simp] theorem State.enter_vr (p : Phase) : (s.enter p).vr = s.vr := rfl
@[simp] theorem State.enter_ir (p : Phase) : (s.enter p).ir = s.ir := rfl
@[simp] theorem State.enter_pc (p : Phase) : (s.enter p).pc = s.pc := rfl
@[simp] theorem State.enter_ar (p : Phase) : (s.enter p).ar = s.ar := rfl
@[simp] theorem State.enter_jf (p : Phase) : (s.enter p).jf = s.jf := rfl
@[simp] theorem State.enter_uc (p : Phase) : (s.enter p).uc = 0 := rfl
@[simp] theorem State.enter_ph (p : Phase) : (s.enter p).ph = p := rfl
@[simp] theorem State.enter_flt (p : Phase) : (s.enter p).flt = s.flt := rfl
@[simp] theorem State.enter_mem (p : Phase) : (s.enter p).mem = s.mem := rfl
@[simp] theorem State.enter_out (p : Phase) : (s.enter p).out = { s.out with phase := some p } := rfl
@[simp] theorem State.enter_traceDraws (p : Phase) : (s.enter p).traceDraws = s.traceDraws := rfl

@[simp] theorem State.notifyTerminal_cfg : s.notifyTerminal.cfg = s.cfg := rfl
@[simp] theorem State.notifyTerminal_acc : s.notifyTerminal.acc = s.acc := rfl
@[simp] theorem State.notifyTerminal_vr : s.notifyTerminal.vr = s.vr := rfl
@[simp] theorem State.notifyTerminal_ir : s.notifyTerminal.ir = s.ir := rfl
@[simp] theorem State.notifyTerminal_pc : s.notifyTerminal.pc = s.pc := rfl
@[simp] theorem State.notifyTerminal_ar : s.notifyTerminal.ar = s.ar := rfl
@[simp] theorem State.notifyTerminal_jf : s.notifyTerminal.jf = s.jf := rfl
@[simp] theorem State.notifyTerminal_uc : s.notifyTerminal.uc = s.uc := rfl
@[simp] theorem State.notifyTerminal_ph : s.notifyTerminal.ph = s.ph := rfl
@[simp] theorem State.notifyTerminal_flt : s.notifyTerminal.flt = s.flt := rfl
@[simp] theorem State.notifyTerminal_mem : s.notifyTerminal.mem = s.mem := rfl
@[simp] theorem State.notifyTerminal_out : s.notifyTerminal.out = { s.out with haltedTerminal := true } := rfl
@[simp] theorem State.notifyTerminal_traceDraws : s.notifyTerminal.traceDraws = s.traceDraws := rfl

@[simp] theorem State.notifyBreak_cfg : s.notifyBreak.cfg = s.cfg := rfl
@[simp] theorem State.notifyBreak_acc : s.notifyBreak.acc = s.acc := rfl
@[simp] theorem State.notifyBreak_vr : s.notifyBreak.vr = s.vr := rfl
@[simp] theorem State.notifyBreak_ir : s.notifyBreak.ir = s.ir := rfl
@[simp] theorem State.notifyBreak_pc : s.notifyBreak.pc = s.pc := rfl
@[simp] theorem State.notifyBreak_ar : s.notifyBreak.ar = s.ar := rfl
@[simp] theorem State.notifyBreak_jf : s.notifyBreak.jf = s.jf := rfl
@[simp] theorem State.notifyBreak_uc : s.notifyBreak.uc = s.uc := rfl
@[simp] theorem State.notifyBreak_ph : s.notifyBreak.ph = s.ph := rfl
@[simp] theorem State.notifyBreak_flt : s.notifyBreak.flt = s.flt := rfl
@[simp] theorem State.notifyBreak_mem : s.notifyBreak.mem = s.mem := rfl
@[simp] theorem State.notifyBreak_out : s.notifyBreak.out = { s.out with haltedBreak := true } := rfl
@[simp] theorem State.notifyBreak_traceDraws : s.notifyBreak.traceDraws = s.traceDraws := rfl

@[simp] theorem State.raiseDivideByZero_cfg : s.raiseDivideByZero.cfg = s.cfg := rfl
@[simp] theorem State.raiseDivideByZero_acc : s.raiseDivideByZero.acc = s.acc := rfl
@[simp] theorem State.raiseDivideByZero_vr : s.raiseDivideByZero.vr = s.vr := rfl
@[simp] theorem State.raiseDivideByZero_ir : s.raiseDivideByZero.ir = s.ir := rfl
@[simp] theorem State.raiseDivideByZero_pc : s.raiseDivideByZero.pc = s.pc := rfl
@[simp] theorem State.raiseDivideByZero_ar : s.raiseDivideByZero.ar = s.ar := rfl
@[simp] theorem State.raiseDivideByZero_jf : s.raiseDivideByZero.jf = s.jf := rfl
@[simp] theorem State.raiseDivideByZero_uc : s.raiseDivideByZero.uc = 0 := rfl
@[simp] theorem State.raiseDivideByZero_ph : s.raiseDivideByZero.ph = .error := rfl
@[simp] theorem State.raiseDivideByZero_flt : s.raiseDivideByZero.flt = .divideByZero := rfl
@[simp] theorem State.raiseDivideByZero_mem : s.raiseDivideByZero.mem = s.mem := rfl
@[simp] theorem State.raiseDivideByZero_out : s.raiseDivideByZero.out = { s.out with result := .errorDivideByZero } := rfl
@[simp] theorem State.raiseDivideByZero_traceDraws : s.raiseDivideByZero.traceDraws = s.traceDraws := rfl

@[simp] theorem State.openMicroStep_cfg : s.openMicroStep.cfg = s.cfg := rfl
@[simp] theorem State.openMicroStep_acc : s.openMicroStep.acc = s.acc := rfl
@[simp] theorem State.openMicroStep_vr : s.openMicroStep.vr = s.vr := rfl
@[simp] theorem State.openMicroStep_ir : s.openMicroStep.ir = s.ir := rfl
@[simp] theorem State.openMicroStep_pc : s.openMicroStep.pc = s.pc := rfl
@[simp] theorem State.openMicroStep_ar : s.openMicroStep.ar = s.ar := rfl
@[simp] theorem State.openMicroStep_jf : s.openMicroStep.jf = s.jf := rfl
@[simp] theorem State.openMicroStep_uc : s.openMicroStep.uc = s.uc := rfl
@[simp] theorem State.openMicroStep_ph : s.openMicroStep.ph = s.ph := rfl
@[simp] theorem State.openMicroStep_flt : s.openMicroStep.flt = s.flt := rfl
@[simp] theorem State.openMicroStep_mem : s.openMicroStep.mem = s.mem := rfl
@[simp] theorem State.openMicroStep_out : s.openMicroStep.out = { Output.silent with trace := some s.traceDraws } := rfl
@[simp] theorem State.openMicroStep_traceDraws : s.openMicroStep.traceDraws = s.traceDraws + 1 := rfl

@[simp] theorem State.idleStep_cfg (r : StepResult) : (s.idleStep r).cfg = s.cfg := rfl
@[simp] theorem State.idleStep_acc (r : StepResult) : (s.idleStep r).acc = s.acc := rfl
@[simp] theorem State.idleStep_vr (r : StepResult) : (s.idleStep r).vr = s.vr := rfl
@[simp] theorem State.idleStep_ir (r : StepResult) : (s.idleStep r).ir = s.ir := rfl
@[simp] theorem State.idleStep_pc (r : StepResult) : (s.idleStep r).pc = s.pc := rfl
@[simp] theorem State.idleStep_ar (r : StepResult) : (s.idleStep r).ar = s.ar := rfl
@[simp] theorem State.idleStep_jf (r : StepResult) : (s.idleStep r).jf = s.jf := rfl
@[simp] theorem State.idleStep_uc (r : StepResult) : (s.idleStep r).uc = s.uc := rfl
@[simp] theorem State.idleStep_ph (r : StepResult) : (s.idleStep r).ph = s.ph := rfl
@[simp] theorem State.idleStep_flt (r : StepResult) : (s.idleStep r).flt = s.flt := rfl
@[simp] theorem State.idleStep_mem (r : StepResult) : (s.idleStep r).mem = s.mem := rfl
@[simp] theorem State.idleStep_out (r : StepResult) : (s.idleStep r).out = { Output.silent with result := r } := rfl
@[simp] theorem State.idleStep_traceDraws (r : StepResult) : (s.idleStep r).traceDraws = s.traceDraws := rfl

end Sys2Proof.Machine
end

