-- ==== Sys2Proof/Laws/Ops.lean ====
section
/-!
SUPPORT. Sys2Proof/Laws/Ops.lean: for each shared operation, one lemma that says everything it can do.
-/

namespace Sys2Proof.Machine

/-- A read that answers a next state read an existing address. -/
theorem memRead_next {s t : State} {a : Nat} {k : Word → Result} :
    memRead s a k = .next t ↔ a < s.cfg.n ∧ k (s.mem.read a) = .next t := by
  unfold memRead; split <;> simp [*]

@[simp] theorem memRead_of_lt {s : State} {a : Nat} (h : a < s.cfg.n) (k : Word → Result) :
    memRead s a k = k (s.mem.read a) := by simp [memRead, h]

/-- A write that answers a next state wrote an existing address. -/
theorem memWrite_next {s t : State} {a : Nat} {v : Word} {k : State → Result} :
    memWrite s a v k = .next t ↔ a < s.cfg.n ∧ k (s.setWord a v) = .next t := by
  unfold memWrite; split <;> simp [*]

@[simp] theorem memWrite_of_lt {s : State} {a : Nat} (h : a < s.cfg.n) (v : Word) (k : State → Result) :
    memWrite s a v k = k (s.setWord a v) := by simp [memWrite, h]

/-- A one-micro-step EXECUTE that answers a next state was at UC = 0. -/
theorem singleMicroStep_next {s t : State} {r : Result} :
    singleMicroStep s r = .next t ↔ s.uc = 0 ∧ r = .next t := by
  unfold singleMicroStep; split <;> simp [*]

/-- A two-micro-step EXECUTE performs the micro-step UC selects. -/
theorem twoMicroSteps_next {s t : State} {r₀ r₁ : Result} :
    twoMicroSteps s r₀ r₁ = .next t ↔ (s.uc = 0 ∧ r₀ = .next t) ∨ (s.uc = 1 ∧ r₁ = .next t) := by
  unfold twoMicroSteps
  split
  · simp [*]
  · have : s.uc = 1 := by omega
    simp [*]

/-- AdvancePC() goes to the next address, or halts at the last. -/
theorem State.advancePC_cases (s : State) :
    (s.pc + 1 < s.cfg.n ∧ s.advancePC = (s.setPc (s.pc + 1)).enter .fetch) ∨
    (s.cfg.n ≤ s.pc + 1 ∧ s.advancePC = s.enterHalt) := by
  unfold State.advancePC; split
  · exact .inl ⟨‹_›, rfl⟩
  · exact .inr ⟨by omega, rfl⟩

@[simp] theorem State.advancePC_cfg (s : State) : s.advancePC.cfg = s.cfg := by unfold State.advancePC; split <;> rfl
@[simp] theorem State.advancePC_acc (s : State) : s.advancePC.acc = s.acc := by unfold State.advancePC; split <;> rfl
@[simp] theorem State.advancePC_vr (s : State) : s.advancePC.vr = s.vr := by unfold State.advancePC; split <;> rfl
@[simp] theorem State.advancePC_ir (s : State) : s.advancePC.ir = s.ir := by unfold State.advancePC; split <;> rfl
@[simp] theorem State.advancePC_ar (s : State) : s.advancePC.ar = s.ar := by unfold State.advancePC; split <;> rfl
@[simp] theorem State.advancePC_jf (s : State) : s.advancePC.jf = s.jf := by unfold State.advancePC; split <;> rfl
@[simp] theorem State.advancePC_uc (s : State) : s.advancePC.uc = 0 := by unfold State.advancePC; split <;> rfl
@[simp] theorem State.advancePC_flt (s : State) : s.advancePC.flt = s.flt := by unfold State.advancePC; split <;> rfl
@[simp] theorem State.advancePC_mem (s : State) : s.advancePC.mem = s.mem := by unfold State.advancePC; split <;> rfl
@[simp] theorem State.advancePC_traceDraws (s : State) : s.advancePC.traceDraws = s.traceDraws := by
  unfold State.advancePC; split <;> rfl

/-- The operand micro-step from memory loads VR with the word at AR. -/
theorem operandFromMemory_next {s t : State} :
    operandFromMemory s = .next t ↔ s.ar < s.cfg.n ∧ (s.setVr (s.mem.read s.ar)).stayInPhase = t := by
  simp [operandFromMemory, memRead_next]

/-- The combine micro-step of DIV and MOD faults on a zero VR and combines otherwise. -/
theorem combineUnlessZero_next {f : Word → Word → Word} {s t : State} :
    combineUnlessZero f s = .next t ↔
      (s.vr = 0#32 ∧ s.raiseDivideByZero = t) ∨ (s.vr ≠ 0#32 ∧ (s.setAcc (f s.acc s.vr)).advancePC = t) := by
  unfold combineUnlessZero combine; split <;> simp [*]

/-- A load from memory reads the word at AR. -/
theorem loadFromMemory_next {s t : State} :
    loadFromMemory s = .next t ↔ s.ar < s.cfg.n ∧ (s.setAcc (s.mem.read s.ar)).advancePC = t := by
  simp [loadFromMemory, memRead_next]

/-- A store writes ACC to the word at AR. -/
theorem storeToMemory_next {s t : State} :
    storeToMemory s = .next t ↔ s.ar < s.cfg.n ∧ (s.setWord s.ar s.acc).advancePC = t := by
  simp [storeToMemory, memWrite_next]

/-- A jump through memory goes to the reduced word at AR. -/
theorem withTargetFromMemory_next {s t : State} {k : Nat → State} :
    withTargetFromMemory s k = .next t ↔ s.ar < s.cfg.n ∧ k (wordMod (s.mem.read s.ar) s.cfg.n) = t := by
  simp [withTargetFromMemory, memRead_next]

/-- The resolution through memory jumps if JF is set and advances otherwise. -/
theorem resolveFromMemory_next {s t : State} :
    resolveFromMemory s = .next t ↔
      (s.jf = true ∧ s.ar < s.cfg.n ∧ s.takeJump (wordMod (s.mem.read s.ar) s.cfg.n) = t) ∨
      (s.jf = false ∧ s.advancePC = t) := by
  unfold resolveFromMemory; split <;> simp [*, withTargetFromMemory_next]

/-- The immediate resolution jumps if JF is set and advances otherwise. -/
theorem resolveImmediate_next {x : Operand24} {s t : State} :
    resolveImmediate x s = .next t ↔
      (s.jf = true ∧ s.takeJump (operandMod x s.cfg.n) = t) ∨ (s.jf = false ∧ s.advancePC = t) := by
  unfold resolveImmediate; split <;> simp [*, withImmediateTarget]

/-- A reduced word is an existing address. -/
theorem wordMod_lt {n : Nat} (w : Word) (h : 0 < n) : wordMod w n < n := by
  have h0 := Int.emod_nonneg w.toInt (show (n : Int) ≠ 0 by omega)
  have h1 := Int.emod_lt_of_pos w.toInt (show (0 : Int) < n by omega)
  unfold wordMod; omega

/-- A reduced operand is an existing address. -/
theorem operandMod_lt {n : Nat} (x : Operand24) (h : 0 < n) : operandMod x n < n := Nat.mod_lt _ h

end Sys2Proof.Machine
end

