-- ==== Sys2Proof/Laws/Exec.lean ====
section
/-!
SUPPORT. Sys2Proof/Laws/Exec.lean: everything an EXECUTE micro-step can do, and when it answers a next state.
-/

namespace Sys2Proof.Machine

@[simp] theorem State.enterHalt_cfg (s : State) : s.enterHalt.cfg = s.cfg := rfl
@[simp] theorem State.enterHalt_acc (s : State) : s.enterHalt.acc = s.acc := rfl
@[simp] theorem State.enterHalt_vr (s : State) : s.enterHalt.vr = s.vr := rfl
@[simp] theorem State.enterHalt_ir (s : State) : s.enterHalt.ir = s.ir := rfl
@[simp] theorem State.enterHalt_pc (s : State) : s.enterHalt.pc = s.pc := rfl
@[simp] theorem State.enterHalt_ar (s : State) : s.enterHalt.ar = s.ar := rfl
@[simp] theorem State.enterHalt_jf (s : State) : s.enterHalt.jf = s.jf := rfl
@[simp] theorem State.enterHalt_uc (s : State) : s.enterHalt.uc = 0 := rfl
@[simp] theorem State.enterHalt_ph (s : State) : s.enterHalt.ph = .halt := rfl
@[simp] theorem State.enterHalt_flt (s : State) : s.enterHalt.flt = s.flt := rfl
@[simp] theorem State.enterHalt_mem (s : State) : s.enterHalt.mem = s.mem := rfl
@[simp] theorem State.enterHalt_out (s : State) :
    s.enterHalt.out = { s.out with phase := some .halt, haltedTerminal := true } := rfl
@[simp] theorem State.enterHalt_traceDraws (s : State) : s.enterHalt.traceDraws = s.traceDraws := rfl

@[simp] theorem State.jumpTo_cfg (s : State) (a : Nat) : (s.jumpTo a).cfg = s.cfg := rfl
@[simp] theorem State.jumpTo_acc (s : State) (a : Nat) : (s.jumpTo a).acc = s.acc := rfl
@[simp] theorem State.jumpTo_vr (s : State) (a : Nat) : (s.jumpTo a).vr = s.vr := rfl
@[simp] theorem State.jumpTo_ir (s : State) (a : Nat) : (s.jumpTo a).ir = s.ir := rfl
@[simp] theorem State.jumpTo_pc (s : State) (a : Nat) : (s.jumpTo a).pc = a := rfl
@[simp] theorem State.jumpTo_ar (s : State) (a : Nat) : (s.jumpTo a).ar = s.ar := rfl
@[simp] theorem State.jumpTo_jf (s : State) (a : Nat) : (s.jumpTo a).jf = s.jf := rfl
@[simp] theorem State.jumpTo_uc (s : State) (a : Nat) : (s.jumpTo a).uc = 0 := rfl
@[simp] theorem State.jumpTo_ph (s : State) (a : Nat) : (s.jumpTo a).ph = .fetch := rfl
@[simp] theorem State.jumpTo_flt (s : State) (a : Nat) : (s.jumpTo a).flt = s.flt := rfl
@[simp] theorem State.jumpTo_mem (s : State) (a : Nat) : (s.jumpTo a).mem = s.mem := rfl
@[simp] theorem State.jumpTo_out (s : State) (a : Nat) :
    (s.jumpTo a).out = { s.out with pc := some a, phase := some .fetch } := rfl
@[simp] theorem State.jumpTo_traceDraws (s : State) (a : Nat) : (s.jumpTo a).traceDraws = s.traceDraws := rfl

@[simp] theorem State.takeJump_cfg (s : State) (a : Nat) : (s.takeJump a).cfg = s.cfg := rfl
@[simp] theorem State.takeJump_acc (s : State) (a : Nat) : (s.takeJump a).acc = s.acc := rfl
@[simp] theorem State.takeJump_vr (s : State) (a : Nat) : (s.takeJump a).vr = s.vr := rfl
@[simp] theorem State.takeJump_ir (s : State) (a : Nat) : (s.takeJump a).ir = s.ir := rfl
@[simp] theorem State.takeJump_pc (s : State) (a : Nat) : (s.takeJump a).pc = a := rfl
@[simp] theorem State.takeJump_ar (s : State) (a : Nat) : (s.takeJump a).ar = s.ar := rfl
@[simp] theorem State.takeJump_jf (s : State) (a : Nat) : (s.takeJump a).jf = false := rfl
@[simp] theorem State.takeJump_uc (s : State) (a : Nat) : (s.takeJump a).uc = 0 := rfl
@[simp] theorem State.takeJump_ph (s : State) (a : Nat) : (s.takeJump a).ph = .fetch := rfl
@[simp] theorem State.takeJump_flt (s : State) (a : Nat) : (s.takeJump a).flt = s.flt := rfl
@[simp] theorem State.takeJump_mem (s : State) (a : Nat) : (s.takeJump a).mem = s.mem := rfl
@[simp] theorem State.takeJump_out (s : State) (a : Nat) :
    (s.takeJump a).out = { s.out with pc := some a, jf := some false, phase := some .fetch } := rfl
@[simp] theorem State.takeJump_traceDraws (s : State) (a : Nat) : (s.takeJump a).traceDraws = s.traceDraws := rfl

/-- The kinds of EXECUTE micro-step: what one leaves behind, by the group of its instruction and by UC. -/
inductive ExecStep (i : Instr) (s : State) : State → Prop where
  | advance (x : Operand24) : i = .nop x → s.uc = 0 → ExecStep i s s.advancePC
  | stop (x : Operand24) : i = .halt x → s.uc = 0 → ExecStep i s s.enterHalt
  | pause (x : Operand24) : i = .brk x → s.uc = 0 → ExecStep i s s.notifyBreak.advancePC
  | move (x : Operand24) (v : Word) : i = .load x ∨ i = .loadi x ∨ i = .loadm x ∨ i = .not x → s.uc = 0 →
      ExecStep i s (s.setAcc v).advancePC
  | store (x : Operand24) : i = .store x ∨ i = .storei x → s.uc = 0 → s.ar < s.cfg.n →
      ExecStep i s (s.setWord s.ar s.acc).advancePC
  | jump (x : Operand24) (a : Nat) : i = .jmp x ∨ i = .jmpi x ∨ i = .jmpm x → s.uc = 0 →
      (0 < s.cfg.n → a < s.cfg.n) → ExecStep i s (s.jumpTo a)
  | operand (v : Word) : execGroup i = .alu ∨ execGroup i = .divide → s.uc = 0 →
      ExecStep i s (s.setVr v).stayInPhase
  | combine (v : Word) : execGroup i = .alu ∨ execGroup i = .divide → s.uc = 1 →
      ExecStep i s (s.setAcc v).advancePC
  | divideByZero : execGroup i = .divide → s.uc = 1 → s.vr = 0#32 → ExecStep i s s.raiseDivideByZero
  | test (b : Bool) : execGroup i = .condJump → s.uc = 0 → ExecStep i s (s.setJf b).stayInPhase
  | taken (a : Nat) : execGroup i = .condJump → s.uc = 1 → s.jf = true → (0 < s.cfg.n → a < s.cfg.n) →
      ExecStep i s (s.takeJump a)
  | untaken : execGroup i = .condJump → s.uc = 1 → s.jf = false → ExecStep i s s.advancePC

theorem loadForm_next {i : Instr} {s t : State} {x : Operand24}
    (hi : i = .load x ∨ i = .loadi x ∨ i = .loadm x ∨ i = .not x)
    (h : singleMicroStep s (loadFromMemory s) = .next t) : ExecStep i s t := by
  obtain ⟨h0, h⟩ := singleMicroStep_next.1 h
  obtain ⟨-, rfl⟩ := loadFromMemory_next.1 h
  exact .move x _ hi h0

theorem storeForm_next {i : Instr} {s t : State} {x : Operand24} (hi : i = .store x ∨ i = .storei x)
    (h : singleMicroStep s (storeToMemory s) = .next t) : ExecStep i s t := by
  obtain ⟨h0, h⟩ := singleMicroStep_next.1 h
  obtain ⟨ha, rfl⟩ := storeToMemory_next.1 h
  exact .store x hi h0 ha

theorem jumpForm_next {i : Instr} {s t : State} {x : Operand24} (hi : i = .jmp x ∨ i = .jmpi x ∨ i = .jmpm x)
    (h : singleMicroStep s (withTargetFromMemory s s.jumpTo) = .next t) : ExecStep i s t := by
  obtain ⟨h0, h⟩ := singleMicroStep_next.1 h
  obtain ⟨-, rfl⟩ := withTargetFromMemory_next.1 h
  exact .jump x _ hi h0 (wordMod_lt _)

theorem operandForm_next {i : Instr} {s t : State} {r : Result} (hg : execGroup i = .alu ∨ execGroup i = .divide)
    (hr : r = .next t → s.uc = 1 → ExecStep i s t) (h : twoMicroSteps s (operandFromMemory s) r = .next t) :
    ExecStep i s t := by
  rcases twoMicroSteps_next.1 h with ⟨h0, h⟩ | ⟨h1, h⟩
  · obtain ⟨-, rfl⟩ := operandFromMemory_next.1 h
    exact .operand _ hg h0
  · exact hr h h1

theorem immediateForm_next {i : Instr} {s t : State} {r : Result} {x : Operand24}
    (hg : execGroup i = .alu ∨ execGroup i = .divide)
    (hr : r = .next t → s.uc = 1 → ExecStep i s t) (h : twoMicroSteps s (operandImmediate x s) r = .next t) :
    ExecStep i s t := by
  rcases twoMicroSteps_next.1 h with ⟨h0, h⟩ | ⟨h1, h⟩
  · cases h; exact .operand _ hg h0
  · exact hr h h1

theorem combineForm_next {i : Instr} {s t : State} {f : Word → Word → Word} (hg : execGroup i = .alu)
    (h : Machine.combine f s = .next t) (h1 : s.uc = 1) : ExecStep i s t := by
  cases h; exact .combine _ (.inl hg) h1

theorem divideForm_next {i : Instr} {s t : State} {f : Word → Word → Word} (hg : execGroup i = .divide)
    (h : combineUnlessZero f s = .next t) (h1 : s.uc = 1) : ExecStep i s t := by
  rcases combineUnlessZero_next.1 h with ⟨h0, rfl⟩ | ⟨-, rfl⟩
  · exact .divideByZero hg h1 h0
  · exact .combine _ (.inr hg) h1

theorem condForm_next {i : Instr} {s t : State} {cc : Cond} (hg : execGroup i = .condJump)
    (h : twoMicroSteps s (condTest cc s) (resolveFromMemory s) = .next t) : ExecStep i s t := by
  rcases twoMicroSteps_next.1 h with ⟨h0, h⟩ | ⟨h1, h⟩
  · cases h; exact .test _ hg h0
  · rcases resolveFromMemory_next.1 h with ⟨hj, -, rfl⟩ | ⟨hj, rfl⟩
    · exact .taken _ hg h1 hj (wordMod_lt _)
    · exact .untaken hg h1 hj

theorem condImmediateForm_next {i : Instr} {s t : State} {cc : Cond} {x : Operand24} (hg : execGroup i = .condJump)
    (h : twoMicroSteps s (condTest cc s) (resolveImmediate x s) = .next t) : ExecStep i s t := by
  rcases twoMicroSteps_next.1 h with ⟨h0, h⟩ | ⟨h1, h⟩
  · cases h; exact .test _ hg h0
  · rcases resolveImmediate_next.1 h with ⟨hj, rfl⟩ | ⟨hj, rfl⟩
    · exact .taken _ hg h1 hj (operandMod_lt _)
    · exact .untaken hg h1 hj

/-- An EXECUTE micro-step that answers a next state is of one of the kinds. -/
theorem exec_next {i : Instr} {s t : State} (h : exec i s = .next t) : ExecStep i s t := by
  cases i with
  | nop x => obtain ⟨h0, h⟩ := singleMicroStep_next.1 h; cases h; exact .advance x rfl h0
  | halt x => obtain ⟨h0, h⟩ := singleMicroStep_next.1 h; cases h; exact .stop x rfl h0
  | brk x => obtain ⟨h0, h⟩ := singleMicroStep_next.1 h; cases h; exact .pause x rfl h0
  | load x | loadi x => exact loadForm_next (x := x) (by simp) h
  | loadm x | not x => obtain ⟨h0, h⟩ := singleMicroStep_next.1 h; cases h; exact .move x _ (by simp) h0
  | store x | storei x => exact storeForm_next (x := x) (by simp) h
  | add x | addi x | sub x | subi x | mult x | multi x | and x | andi x | or x | ori x =>
    exact operandForm_next (.inl rfl) (combineForm_next rfl) h
  | addm x | subm x | multm x | andm x | orm x => exact immediateForm_next (.inl rfl) (combineForm_next rfl) h
  | div x | divi x | mod x | modi x => exact operandForm_next (.inr rfl) (divideForm_next rfl) h
  | divm x | modm x => exact immediateForm_next (.inr rfl) (divideForm_next rfl) h
  | jmp x | jmpi x => exact jumpForm_next (x := x) (by simp) h
  | jmpm x =>
    obtain ⟨h0, h⟩ := singleMicroStep_next.1 h
    cases h; exact .jump x _ (by simp) h0 (operandMod_lt _)
  | jmpeq x | jmpeqi x | jmpne x | jmpnei x | jmpgt x | jmpgti x | jmplt x | jmplti x | jmpge x | jmpgei x | jmple x
  | jmplei x => exact condForm_next rfl h
  | jmpeqm x | jmpnem x | jmpgtm x | jmpltm x | jmpgem x | jmplem x => exact condImmediateForm_next rfl h

/-- A micro-step of a one-micro-step instruction is at UC = 0: the kinds that name no group are of that group. -/
theorem ExecStep.single_uc {i : Instr} {s t : State} (h : ExecStep i s t) (hg : execGroup i = .single) : s.uc = 0 := by
  cases h <;> simp_all

/-- With AR at an existing address and no second micro-step asked of a one-micro-step instruction, EXECUTE answers a
next state. -/
theorem exec_total (i : Instr) {s : State} (ha : s.ar < s.cfg.n) (hu : s.uc = 1 → execGroup i ≠ .single) :
    ∃ t, exec i s = .next t := by
  have h01 : s.uc = 0 ∨ s.uc = 1 := by omega
  rcases h01 with h0 | h1
  · cases i <;>
      simp [exec, singleMicroStep, twoMicroSteps, h0, execNop, execHalt, execBreak, execLoad, execLoadi, execLoadm,
        execStore, execStorei, execAdd, execAddi, execAddm, execSub, execSubi, execSubm, execMult, execMulti, execMultm,
        execDiv, execDivi, execDivm, execMod, execModi, execModm, execAnd, execAndi, execAndm, execOr, execOri, execOrm,
        execNot, execJmp, execJmpi, execJmpm, execJmpeq, execJmpeqi, execJmpeqm, execJmpne, execJmpnei, execJmpnem,
        execJmpgt, execJmpgti, execJmpgtm, execJmplt, execJmplti, execJmpltm, execJmpge, execJmpgei, execJmpgem,
        execJmple, execJmplei, execJmplem, loadFromMemory, storeToMemory, operandFromMemory, operandImmediate,
        withTargetFromMemory, withImmediateTarget, condTest, ha]
  · have h10 : ¬ s.uc = 0 := by omega
    have comb : ∀ f, ∃ t, Machine.combine f s = .next t := fun f => ⟨_, rfl⟩
    have divd : ∀ f, ∃ t, combineUnlessZero f s = .next t := fun f => by
      unfold combineUnlessZero; split
      · exact ⟨_, rfl⟩
      · exact comb f
    have res : ∃ t, resolveFromMemory s = .next t := by
      unfold resolveFromMemory withTargetFromMemory; split <;> simp [ha]
    have resI : ∀ x, ∃ t, resolveImmediate x s = .next t := fun x => by
      unfold resolveImmediate withImmediateTarget; split <;> exact ⟨_, rfl⟩
    cases i <;>
      first
      | exact absurd rfl (hu h1)
      | simp [exec, twoMicroSteps, h10, comb, divd, res, resI, execAdd, execAddi, execAddm, execSub, execSubi, execSubm,
          execMult, execMulti, execMultm, execDiv, execDivi, execDivm, execMod, execModi, execModm, execAnd, execAndi,
          execAndm, execOr, execOri, execOrm, execJmpeq, execJmpeqi, execJmpeqm, execJmpne, execJmpnei, execJmpnem,
          execJmpgt, execJmpgti, execJmpgtm, execJmplt, execJmplti, execJmpltm, execJmpge, execJmpgei, execJmpgem,
          execJmple, execJmplei, execJmplem]

end Sys2Proof.Machine
end

