-- ==== Sys2Proof/Laws/Cycle.lean ====
section
/-!
SUPPORT. Sys2Proof/Laws/Cycle.lean: everything the FETCH and INDIRECT micro-steps can do, `step` by its phase, and how a
run of micro-steps is put together.
-/

namespace Sys2Proof.Machine

/-- Decoding reads the opcode map and IR alone (R101), so an update of anything else leaves the decoded instruction. -/
@[simp] theorem State.current_openMicroStep (s : State) : s.openMicroStep.current = s.current := rfl

/-- FETCH: the PC into AR, then the word at AR into IR. -/
theorem fetchStep_next {s t : State} :
    fetchStep s = .next t ↔
      (s.uc = 0 ∧ (s.setAr (s.pc % s.cfg.n)).stayInPhase = t) ∨
      (s.uc = 1 ∧ s.ar < s.cfg.n ∧ (s.setIr (s.mem.read s.ar)).enter .indirect = t) := by
  simp [fetchStep, twoMicroSteps_next, memRead_next]

/-- INDIRECT, by the addressing class. -/
theorem indirectStep_next {i : Instr} {s t : State} :
    indirectStep i s = .next t ↔
      (addrClass i = .direct ∧ s.uc = 0 ∧ (s.setAr (operandMod i.operand s.cfg.n)).enter .execute = t) ∨
      (addrClass i = .indirect ∧ s.uc = 0 ∧ (s.setAr (operandMod i.operand s.cfg.n)).stayInPhase = t) ∨
      (addrClass i = .indirect ∧ s.uc = 1 ∧ s.ar < s.cfg.n ∧
        (s.setAr (wordMod (s.mem.read s.ar) s.cfg.n)).enter .execute = t) ∨
      ((addrClass i = .immediate ∨ addrClass i = .none) ∧ s.uc = 0 ∧ s.enter .execute = t) := by
  unfold indirectStep
  split <;>
    simp [*, resolveDirect, resolveIndirect, resolveNothing, singleMicroStep_next, twoMicroSteps_next, memRead_next]

theorem step_fetch {s : State} (h : s.ph = .fetch) : step s = fetchStep s.openMicroStep := by
  simp [step, microStep, h]

theorem step_indirect {s : State} (h : s.ph = .indirect) : step s = indirectStep s.current s.openMicroStep := by
  simp [step, microStep, h]

theorem step_halt {s : State} (h : s.ph = .halt) : step s = .next (s.idleStep .ok) := by simp [step, microStep, h]

theorem step_error {s : State} (h : s.ph = .error) : step s = .next (s.idleStep .errorDivideByZero) := by
  simp [step, microStep, h]

@[simp] theorem run_zero (s : State) : run 0 s = .next s := rfl

/-- One more call of `step()` in front. -/
theorem run_succ_of_step {s t : State} (h : step s = .next t) (k : Nat) : run (k + 1) s = run k t := by
  have hc : Sys2Proof.core.step s = .next t := h
  simp only [run, Host.Core.run, hc]
  rfl

/-- A run that answers a next state can be gone on with. -/
theorem run_add {j : Nat} {s t : State} (h : run j s = .next t) (k : Nat) : run (j + k) s = run k t := by
  induction j generalizing s with
  | zero => cases h; rw [Nat.zero_add]
  | succ j ih =>
    cases hs : step s with
    | next u =>
      rw [run_succ_of_step hs] at h
      rw [Nat.add_right_comm, run_succ_of_step hs, ih h]
    | fault r =>
      have hc : Sys2Proof.core.step s = .fault r := hs
      simp [run, Host.Core.run, hc] at h
    | refused r =>
      have hc : Sys2Proof.core.step s = .refused r := hs
      simp [run, Host.Core.run, hc] at h

end Sys2Proof.Machine
end

