-- ==== Sys2Proof/Laws/Decode.lean ====
section
/-!
SUPPORT. Sys2Proof/Laws/Decode.lean: the fields of an encoded word, and the check of a configuration.
-/

namespace Sys2Proof

/-- The bits of an encoded word: the operand below, the opcode value above. -/
theorem getLsbD_encoded (v : OpcodeValue) (x : Operand24) (i : Nat) :
    (show Word from v ++ x).getLsbD i = if i < 24 then x.getLsbD i else v.getLsbD (i - 24) := by
  have h := BitVec.getLsbD_append (x := v) (y := x) (i := i)
  split <;> simp_all

@[simp] theorem opcField_append (v : OpcodeValue) (x : Operand24) : opcField (v ++ x) = v := by
  apply BitVec.eq_of_getLsbD_eq
  intro i hi
  have h := getLsbD_encoded v x (24 + i)
  simp only [show ¬ 24 + i < 24 by omega, if_false, Nat.add_sub_cancel_left] at h
  simpa [opcField, hi] using h

@[simp] theorem operandField_append (v : OpcodeValue) (x : Operand24) : operandField (v ++ x) = x := by
  apply BitVec.eq_of_getLsbD_eq
  intro i hi
  have h := getLsbD_encoded v x i
  simp only [hi, if_true] at h
  simpa [operandField, hi] using h

/-- A word is its two fields. -/
theorem fields_append (w : Word) : opcField w ++ operandField w = w := by
  apply BitVec.eq_of_getLsbD_eq
  intro i hi
  refine (getLsbD_encoded _ _ i).trans ?_
  split
  · simp [operandField, *]
  · have h2 : i - 24 < 8 := by omega
    have h3 : 24 + (i - 24) = i := by omega
    simp [opcField, h2, h3]

theorem Instr.index_lt (i : Instr) : i.index < OpcodeMap.size := by cases i <;> simp [Instr.index, OpcodeMap.size]

/-- The check of a configuration names no problem exactly where a core can be built with it. -/
theorem Config.problem_eq_none_iff (c : Config) : c.problem = none ↔ c.wf := by
  unfold Config.problem Config.wf OpcodeMap.wf
  repeat' split
  all_goals simp_all
  all_goals omega

end Sys2Proof
end

