-- ==== Sys2Proof/Laws/PerInstr.lean ====
section
/-!
SUPPORT. Sys2Proof/Laws/PerInstr.lean: the family CatalogueEntry, one lemma for each constructor: R74's list holds every
instruction's constructor at its own place.
-/

namespace Sys2Proof.Laws

/-- The catalogue's entry at an instruction's index, applied to its operand, is the instruction. -/
def CatalogueEntry.Statement (i : Instr) : Prop := catalogue[i.index]?.map (· i.operand) = some i

theorem CatalogueEntry.nop (x : Operand24) : CatalogueEntry.Statement (.nop x) := rfl
theorem CatalogueEntry.halt (x : Operand24) : CatalogueEntry.Statement (.halt x) := rfl
theorem CatalogueEntry.brk (x : Operand24) : CatalogueEntry.Statement (.brk x) := rfl
theorem CatalogueEntry.load (x : Operand24) : CatalogueEntry.Statement (.load x) := rfl
theorem CatalogueEntry.loadi (x : Operand24) : CatalogueEntry.Statement (.loadi x) := rfl
theorem CatalogueEntry.loadm (x : Operand24) : CatalogueEntry.Statement (.loadm x) := rfl
theorem CatalogueEntry.store (x : Operand24) : CatalogueEntry.Statement (.store x) := rfl
theorem CatalogueEntry.storei (x : Operand24) : CatalogueEntry.Statement (.storei x) := rfl
theorem CatalogueEntry.add (x : Operand24) : CatalogueEntry.Statement (.add x) := rfl
theorem CatalogueEntry.addi (x : Operand24) : CatalogueEntry.Statement (.addi x) := rfl
theorem CatalogueEntry.addm (x : Operand24) : CatalogueEntry.Statement (.addm x) := rfl
theorem CatalogueEntry.sub (x : Operand24) : CatalogueEntry.Statement (.sub x) := rfl
theorem CatalogueEntry.subi (x : Operand24) : CatalogueEntry.Statement (.subi x) := rfl
theorem CatalogueEntry.subm (x : Operand24) : CatalogueEntry.Statement (.subm x) := rfl
theorem CatalogueEntry.mult (x : Operand24) : CatalogueEntry.Statement (.mult x) := rfl
theorem CatalogueEntry.multi (x : Operand24) : CatalogueEntry.Statement (.multi x) := rfl
theorem CatalogueEntry.multm (x : Operand24) : CatalogueEntry.Statement (.multm x) := rfl
theorem CatalogueEntry.div (x : Operand24) : CatalogueEntry.Statement (.div x) := rfl
theorem CatalogueEntry.divi (x : Operand24) : CatalogueEntry.Statement (.divi x) := rfl
theorem CatalogueEntry.divm (x : Operand24) : CatalogueEntry.Statement (.divm x) := rfl
theorem CatalogueEntry.mod (x : Operand24) : CatalogueEntry.Statement (.mod x) := rfl
theorem CatalogueEntry.modi (x : Operand24) : CatalogueEntry.Statement (.modi x) := rfl
theorem CatalogueEntry.modm (x : Operand24) : CatalogueEntry.Statement (.modm x) := rfl
theorem CatalogueEntry.and (x : Operand24) : CatalogueEntry.Statement (.and x) := rfl
theorem CatalogueEntry.andi (x : Operand24) : CatalogueEntry.Statement (.andi x) := rfl
theorem CatalogueEntry.andm (x : Operand24) : CatalogueEntry.Statement (.andm x) := rfl
theorem CatalogueEntry.or (x : Operand24) : CatalogueEntry.Statement (.or x) := rfl
theorem CatalogueEntry.ori (x : Operand24) : CatalogueEntry.Statement (.ori x) := rfl
theorem CatalogueEntry.orm (x : Operand24) : CatalogueEntry.Statement (.orm x) := rfl
theorem CatalogueEntry.not (x : Operand24) : CatalogueEntry.Statement (.not x) := rfl
theorem CatalogueEntry.jmp (x : Operand24) : CatalogueEntry.Statement (.jmp x) := rfl
theorem CatalogueEntry.jmpi (x : Operand24) : CatalogueEntry.Statement (.jmpi x) := rfl
theorem CatalogueEntry.jmpm (x : Operand24) : CatalogueEntry.Statement (.jmpm x) := rfl
theorem CatalogueEntry.jmpeq (x : Operand24) : CatalogueEntry.Statement (.jmpeq x) := rfl
theorem CatalogueEntry.jmpeqi (x : Operand24) : CatalogueEntry.Statement (.jmpeqi x) := rfl
theorem CatalogueEntry.jmpeqm (x : Operand24) : CatalogueEntry.Statement (.jmpeqm x) := rfl
theorem CatalogueEntry.jmpne (x : Operand24) : CatalogueEntry.Statement (.jmpne x) := rfl
theorem CatalogueEntry.jmpnei (x : Operand24) : CatalogueEntry.Statement (.jmpnei x) := rfl
theorem CatalogueEntry.jmpnem (x : Operand24) : CatalogueEntry.Statement (.jmpnem x) := rfl
theorem CatalogueEntry.jmpgt (x : Operand24) : CatalogueEntry.Statement (.jmpgt x) := rfl
theorem CatalogueEntry.jmpgti (x : Operand24) : CatalogueEntry.Statement (.jmpgti x) := rfl
theorem CatalogueEntry.jmpgtm (x : Operand24) : CatalogueEntry.Statement (.jmpgtm x) := rfl
theorem CatalogueEntry.jmplt (x : Operand24) : CatalogueEntry.Statement (.jmplt x) := rfl
theorem CatalogueEntry.jmplti (x : Operand24) : CatalogueEntry.Statement (.jmplti x) := rfl
theorem CatalogueEntry.jmpltm (x : Operand24) : CatalogueEntry.Statement (.jmpltm x) := rfl
theorem CatalogueEntry.jmpge (x : Operand24) : CatalogueEntry.Statement (.jmpge x) := rfl
theorem CatalogueEntry.jmpgei (x : Operand24) : CatalogueEntry.Statement (.jmpgei x) := rfl
theorem CatalogueEntry.jmpgem (x : Operand24) : CatalogueEntry.Statement (.jmpgem x) := rfl
theorem CatalogueEntry.jmple (x : Operand24) : CatalogueEntry.Statement (.jmple x) := rfl
theorem CatalogueEntry.jmplei (x : Operand24) : CatalogueEntry.Statement (.jmplei x) := rfl
theorem CatalogueEntry.jmplem (x : Operand24) : CatalogueEntry.Statement (.jmplem x) := rfl

end Sys2Proof.Laws
end

