-- ==== Sys2Proof/Tests/Slice0.lean ====
section
/-!
SUPPORT. Sys2Proof/Tests/Slice0.lean: small tests whose expected values are the spec's own (the examples of the
instruction rules and 95_test_vectors.md), and a witness for the hypotheses of each statement that has some.
-/

namespace Sys2Proof.Tests

open Sys2Proof.Machine

-- ---------------------------------------------------------------- helpers

/-- A core of `n` words under the default map, just reset, with the given cells in memory. -/
def small (n : Nat) (cells : Memory) : State :=
  { State.resetOf { n := n, opcodeMap := OpcodeMap.default } 0 with mem := cells }

/-- The state with a word in IR, before its EXECUTE micro-step number `uc`. -/
def executing (w : Word) (uc : Fin 2) (s : State) : State := { s with ir := w, ph := .execute, uc := uc }

/-- A core of 8 zero words with a word in IR and the given ACC and VR, before its second EXECUTE micro-step. -/
def combining (w acc vr : Word) : State := executing w 1 { small 8 [] with acc := acc, vr := vr }

/-- Something of the next state, where there is one. -/
def got {α : Type} (f : State → α) : Result → Option α
  | .next t => some (f t)
  | .fault _ => none
  | .refused _ => none

/-- The reason of a refusal, where there is one. -/
def refusedWith : Result → Option Refusal
  | .next _ => none
  | .fault _ => none
  | .refused r => some r

-- ---------------------------------------------------------------- WellFormed (R6, R8, R354, R352)

theorem test_zero_words_refused :
    refusedWith (construct { n := 0, opcodeMap := OpcodeMap.default }) = some (.badConfig .memorySizeZero) := by decide
theorem test_too_many_words_refused :
    refusedWith (construct { n := 2 ^ 31, opcodeMap := OpcodeMap.default }) =
      some (.badConfig .memorySizeTooLarge) := by decide
theorem test_short_map_refused :
    refusedWith (construct { n := 8, opcodeMap := OpcodeMap.default.tail }) = some (.badConfig .opcodeMapSize) := by
  decide
theorem test_map_with_a_shared_value_refused :
    refusedWith (construct { n := 8, opcodeMap := 1 :: OpcodeMap.default.tail }) =
      some (.badConfig .opcodeMapNotInjective) := by decide
theorem test_construct_bounds :
    got (fun t => t.cfg.n) (construct { n := 1, opcodeMap := OpcodeMap.default }) = some 1 ∧
    got (fun t => t.cfg.n) (construct { n := 2 ^ 31 - 1, opcodeMap := OpcodeMap.default }) = some 2147483647 := by
  decide
theorem test_load_of_another_length_refused :
    refusedWith (loadMemory [1, 2, 3] (small 4 [])) = some (.imageLength 3) := by decide

-- ---------------------------------------------------------------- Decode: words written out from R70 and R74

theorem test_decode_control_and_moves :
    ([0x00000005, 0x01FFFFFF, 0x02800000, 0x0300ABCD, 0x04000000, 0x057FFFFF, 0x06000005, 0x07FFFFFF] :
      List Word).map decode =
    [.nop 0x000005, .halt 0xFFFFFF, .brk 0x800000, .load 0x00ABCD, .loadi 0x000000,
      .loadm 0x7FFFFF, .store 0x000005, .storei 0xFFFFFF] := by decide
theorem test_encode_control_and_moves :
    ([.nop 0x000005, .halt 0xFFFFFF, .brk 0x800000, .load 0x00ABCD, .loadi 0x000000,
      .loadm 0x7FFFFF, .store 0x000005, .storei 0xFFFFFF] :
      List Instr).map encode =
    [0x00000005, 0x01FFFFFF, 0x02800000, 0x0300ABCD, 0x04000000, 0x057FFFFF, 0x06000005, 0x07FFFFFF] := by decide
theorem test_decode_arithmetic :
    ([0x08800000, 0x0900ABCD, 0x0A000000, 0x0B7FFFFF, 0x0C000005, 0x0DFFFFFF, 0x0E800000, 0x0F00ABCD,
      0x10000000, 0x117FFFFF, 0x12000005, 0x13FFFFFF, 0x14800000, 0x1500ABCD, 0x16000000] :
      List Word).map decode =
    [.add 0x800000, .addi 0x00ABCD, .addm 0x000000, .sub 0x7FFFFF, .subi 0x000005,
      .subm 0xFFFFFF, .mult 0x800000, .multi 0x00ABCD, .multm 0x000000, .div 0x7FFFFF,
      .divi 0x000005, .divm 0xFFFFFF, .mod 0x800000, .modi 0x00ABCD, .modm 0x000000] := by decide
theorem test_encode_arithmetic :
    ([.add 0x800000, .addi 0x00ABCD, .addm 0x000000, .sub 0x7FFFFF, .subi 0x000005,
      .subm 0xFFFFFF, .mult 0x800000, .multi 0x00ABCD, .multm 0x000000, .div 0x7FFFFF,
      .divi 0x000005, .divm 0xFFFFFF, .mod 0x800000, .modi 0x00ABCD, .modm 0x000000] :
      List Instr).map encode =
    [0x08800000, 0x0900ABCD, 0x0A000000, 0x0B7FFFFF, 0x0C000005, 0x0DFFFFFF, 0x0E800000, 0x0F00ABCD,
      0x10000000, 0x117FFFFF, 0x12000005, 0x13FFFFFF, 0x14800000, 0x1500ABCD, 0x16000000] := by decide
theorem test_decode_logic_and_jumps :
    ([0x177FFFFF, 0x18000005, 0x19FFFFFF, 0x1A800000, 0x1B00ABCD, 0x1C000000, 0x1D7FFFFF, 0x1E000005,
      0x1FFFFFFF, 0x20800000] :
      List Word).map decode =
    [.and 0x7FFFFF, .andi 0x000005, .andm 0xFFFFFF, .or 0x800000, .ori 0x00ABCD,
      .orm 0x000000, .not 0x7FFFFF, .jmp 0x000005, .jmpi 0xFFFFFF, .jmpm 0x800000] := by decide
theorem test_encode_logic_and_jumps :
    ([.and 0x7FFFFF, .andi 0x000005, .andm 0xFFFFFF, .or 0x800000, .ori 0x00ABCD,
      .orm 0x000000, .not 0x7FFFFF, .jmp 0x000005, .jmpi 0xFFFFFF, .jmpm 0x800000] :
      List Instr).map encode =
    [0x177FFFFF, 0x18000005, 0x19FFFFFF, 0x1A800000, 0x1B00ABCD, 0x1C000000, 0x1D7FFFFF, 0x1E000005,
      0x1FFFFFFF, 0x20800000] := by decide
theorem test_decode_conditional_jumps :
    ([0x2100ABCD, 0x22000000, 0x237FFFFF, 0x24000005, 0x25FFFFFF, 0x26800000, 0x2700ABCD, 0x28000000,
      0x297FFFFF, 0x2A000005, 0x2BFFFFFF, 0x2C800000, 0x2D00ABCD, 0x2E000000, 0x2F7FFFFF, 0x30000005,
      0x31FFFFFF, 0x32800000] :
      List Word).map decode =
    [.jmpeq 0x00ABCD, .jmpeqi 0x000000, .jmpeqm 0x7FFFFF, .jmpne 0x000005, .jmpnei 0xFFFFFF,
      .jmpnem 0x800000, .jmpgt 0x00ABCD, .jmpgti 0x000000, .jmpgtm 0x7FFFFF, .jmplt 0x000005,
      .jmplti 0xFFFFFF, .jmpltm 0x800000, .jmpge 0x00ABCD, .jmpgei 0x000000, .jmpgem 0x7FFFFF,
      .jmple 0x000005, .jmplei 0xFFFFFF, .jmplem 0x800000] := by decide
theorem test_encode_conditional_jumps :
    ([.jmpeq 0x00ABCD, .jmpeqi 0x000000, .jmpeqm 0x7FFFFF, .jmpne 0x000005, .jmpnei 0xFFFFFF,
      .jmpnem 0x800000, .jmpgt 0x00ABCD, .jmpgti 0x000000, .jmpgtm 0x7FFFFF, .jmplt 0x000005,
      .jmplti 0xFFFFFF, .jmpltm 0x800000, .jmpge 0x00ABCD, .jmpgei 0x000000, .jmpgem 0x7FFFFF,
      .jmple 0x000005, .jmplei 0xFFFFFF, .jmplem 0x800000] :
      List Instr).map encode =
    [0x2100ABCD, 0x22000000, 0x237FFFFF, 0x24000005, 0x25FFFFFF, 0x26800000, 0x2700ABCD, 0x28000000,
      0x297FFFFF, 0x2A000005, 0x2BFFFFFF, 0x2C800000, 0x2D00ABCD, 0x2E000000, 0x2F7FFFFF, 0x30000005,
      0x31FFFFFF, 0x32800000] := by decide
/-- 95_test_vectors.md 2.1. -/
theorem test_decode_vectors :
    ([0x00000000, 0x01000000, 0x0A000004, 0x1D00ABCD, 0x32FFFFFF, 0x33000000, 0x80000001, 0xFF123456] : List Word).map
      decode = [.nop 0, .halt 0, .addm 4, .not 0x00ABCD, .jmplem 0xFFFFFF, .nop 0, .nop 1, .nop 0x123456] := by decide
/-- R8: the map is a parameter; here NOP and JMPLEM have changed places. -/
theorem test_decode_under_another_map :
    decodeWith (50 :: (OpcodeMap.default.tail.dropLast ++ [0])) 0x32000007 = .nop 7 ∧
    decodeWith (50 :: (OpcodeMap.default.tail.dropLast ++ [0])) 0x00000007 = .jmplem 7 := by decide
theorem test_decode_table_word :
    decodeTableWord 32 0x0D000001 = some (.subm 1) ∧ decodeTableWord 8 0x1FF = some (.nop 0xFF) := by decide

-- ---------------------------------------------------------------- FETCH and INDIRECT (R103 to R108; vectors 2.2)

theorem test_fetch_copies_pc :
    got (fun t => (t.ar, t.uc, t.out.ar)) (step { small 8 [] with pc := 7 }) = some (7, 1, some 7) := by decide
theorem test_fetch_reads_word :
    got (fun t => (t.ir, t.ph, t.out.ir)) (step { small 4 [(0, 0x01000000)] with uc := 1 }) =
      some (0x01000000#32, .indirect, some 0x01000000#32) := by decide
theorem test_direct_address :
    [(8, 0x0300000C), (8, 0x03FFFFFF), (1, 0x08000007)].map (fun p : Nat × Word =>
      got (fun t => (t.ar, t.ph)) (step { small p.1 [] with ir := p.2, ph := .indirect })) =
    [some (4, .execute), some (7, .execute), some (0, .execute)] := by decide
theorem test_pointer :
    ([6, -1, 21, -2147483648] : List Word).map (fun v =>
      got (fun t => (t.ar, t.ph))
        (step { small 8 [(5, v)] with ir := 0x04000005, ph := .indirect, uc := 1, ar := 5 })) =
    [some (6, .execute), some (7, .execute), some (5, .execute), some (0, .execute)] := by decide
theorem test_immediate_leaves_ar :
    got (fun t => (t.ar, t.ph)) (step { small 8 [] with ir := 0x0500000C, ph := .indirect, ar := 2 }) =
      some (2, .execute) := by decide

-- ---------------------------------------------------------------- control (R116 to R119, R112, R113)

theorem test_nop_advances :
    got (fun t => (t.pc, t.ph, t.out.pc)) (step (executing 0x00000000 0 { small 4 [] with pc := 1 })) =
      some (2, .fetch, some 2) := by decide
theorem test_nop_at_the_end_halts :
    got (fun t => (t.pc, t.ph, t.out.haltedTerminal)) (step (executing 0x00000000 0 (small 1 []))) =
      some (0, .halt, true) := by decide
theorem test_unknown_opcode_is_nop :
    got (fun t => (t.pc, t.ph)) (step (executing 0xFF123456 0 (small 4 []))) = some (1, .fetch) := by decide
theorem test_halt_halts :
    got (fun t => (t.pc, t.ph, t.out.phase)) (step (executing 0x01000000 0 (small 4 []))) =
      some (0, .halt, some .halt) := by decide
theorem test_break_goes_on :
    got (fun t => (t.pc, t.ph, t.out.haltedBreak)) (step (executing 0x02000000 0 (small 4 []))) =
      some (1, .fetch, true) := by decide
theorem test_break_at_the_end :
    got (fun t => (t.pc, t.ph, t.out.haltedBreak, t.out.haltedTerminal))
      (step (executing 0x02000000 0 { small 2 [] with pc := 1 })) = some (1, .halt, true, true) := by decide
theorem test_halt_phase_is_silent :
    got (fun t => (t.ph, t.out)) (step { small 4 [] with ph := .halt }) = some (.halt, {}) := by decide
theorem test_error_phase_repeats_the_error :
    got (fun t => (t.ph, t.out)) (step { small 4 [] with ph := .error, flt := .divideByZero }) =
      some (.error, { result := .errorDivideByZero }) := by decide

-- ---------------------------------------------------------------- loads and stores (R160 to R171; vectors 2.4)

theorem test_load :
    got (fun t => (t.acc, t.pc)) (step (executing 0x0300000C 0 { small 8 [(4, -9)] with ar := 4 })) =
      some (-9, 1) := by decide
theorem test_loadi :
    got (fun t => (t.acc, t.pc)) (step (executing 0x04000005 0 { small 8 [(5, -1), (7, 42)] with ar := 7 })) =
      some (42, 1) := by decide
theorem test_loadm :
    got (fun t => (t.acc, t.pc)) (step (executing 0x05FFFFFF 0 (small 8 []))) = some (16777215, 1) := by decide
theorem test_store :
    got (fun t => (t.mem, t.out.mem)) (step (executing 0x06000009 0 { small 8 [] with ar := 1, acc := -3 })) =
      some ([(1, -3)], some [(1, -3)]) := by decide
theorem test_store_of_zero_keeps_the_form :
    got (fun t => t.mem) (step (executing 0x06000001 0 { small 8 [(1, 7), (2, 6)] with ar := 1 })) =
      some [(2, 6)] := by decide
theorem test_storei :
    got (fun t => t.mem) (step (executing 0x07000002 0 { small 8 [(2, 6)] with ar := 6, acc := 5 })) =
      some [(2, 6), (6, 5)] := by decide
theorem test_storei_overwrites_its_pointer :
    got (fun t => t.mem) (step (executing 0x07000002 0 { small 8 [(2, 2)] with ar := 2, acc := 5 })) =
      some [(2, 5)] := by decide

-- ---------------------------------------------------------------- arithmetic and logic (R154 to R196; vectors 2.3)

theorem test_add_operand :
    got (fun t => (t.vr, t.uc, t.pc)) (step (executing 0x08000005 0 { small 8 [(5, 1)] with ar := 5 })) =
      some (1, 1, 0) := by decide
theorem test_add_combine :
    got (fun t => (t.acc, t.pc)) (step (combining 0x08000005 2147483647 1)) =
      some (0x80000000#32, 1) := by decide
theorem test_addi_operand :
    got (fun t => (t.vr, t.uc, t.pc)) (step (executing 0x09000005 0 { small 8 [(5, 6), (6, 1)] with ar := 6 })) =
      some (1, 1, 0) := by decide
theorem test_addi_combine :
    got (fun t => (t.acc, t.pc)) (step (combining 0x09000005 2147483647 1)) =
      some (0x80000000#32, 1) := by decide
theorem test_addm_operand :
    got (fun t => (t.vr, t.uc, t.pc)) (step (executing 0x0A000001 0 { small 8 [] with ar := 0 })) =
      some (1, 1, 0) := by decide
theorem test_addm_combine :
    got (fun t => (t.acc, t.pc)) (step (combining 0x0A000001 2147483647 1)) =
      some (0x80000000#32, 1) := by decide
theorem test_sub_operand :
    got (fun t => (t.vr, t.uc, t.pc)) (step (executing 0x0B000005 0 { small 8 [(5, 1)] with ar := 5 })) =
      some (1, 1, 0) := by decide
theorem test_sub_combine :
    got (fun t => (t.acc, t.pc)) (step (combining 0x0B000005 (-2147483648) 1)) =
      some (0x7FFFFFFF#32, 1) := by decide
theorem test_subi_operand :
    got (fun t => (t.vr, t.uc, t.pc)) (step (executing 0x0C000005 0 { small 8 [(5, 6), (6, 1)] with ar := 6 })) =
      some (1, 1, 0) := by decide
theorem test_subi_combine :
    got (fun t => (t.acc, t.pc)) (step (combining 0x0C000005 (-2147483648) 1)) =
      some (0x7FFFFFFF#32, 1) := by decide
theorem test_subm_operand :
    got (fun t => (t.vr, t.uc, t.pc)) (step (executing 0x0D000001 0 { small 8 [] with ar := 0 })) =
      some (1, 1, 0) := by decide
theorem test_subm_combine :
    got (fun t => (t.acc, t.pc)) (step (combining 0x0D000001 0 1)) =
      some (0xFFFFFFFF#32, 1) := by decide
theorem test_mult_operand :
    got (fun t => (t.vr, t.uc, t.pc)) (step (executing 0x0E000005 0 { small 8 [(5, 65536)] with ar := 5 })) =
      some (65536, 1, 0) := by decide
theorem test_mult_combine :
    got (fun t => (t.acc, t.pc)) (step (combining 0x0E000005 65536 65536)) =
      some (0x00000000#32, 1) := by decide
theorem test_multi_operand :
    got (fun t => (t.vr, t.uc, t.pc)) (step (executing 0x0F000005 0 { small 8 [(5, 6), (6, 1000)] with ar := 6 })) =
      some (1000, 1, 0) := by decide
theorem test_multi_combine :
    got (fun t => (t.acc, t.pc)) (step (combining 0x0F000005 123456789 1000)) =
      some (0xBE991A08#32, 1) := by decide
theorem test_multm_operand :
    got (fun t => (t.vr, t.uc, t.pc)) (step (executing 0x10000003 0 { small 8 [] with ar := 0 })) =
      some (3, 1, 0) := by decide
theorem test_multm_combine :
    got (fun t => (t.acc, t.pc)) (step (combining 0x10000003 (-2) 3)) =
      some (0xFFFFFFFA#32, 1) := by decide
theorem test_div_by_zero_faults :
    got (fun t => (t.ph, t.acc, t.pc, t.out)) (step (combining 0x11000005 10 0)) =
      some (.error, 10, 0, { trace := some 0, result := .errorDivideByZero }) := by decide
theorem test_div_combine :
    got (fun t => (t.acc, t.pc)) (step (combining 0x11000005 (-7) 2)) =
      some (0xFFFFFFFD#32, 1) := by decide
theorem test_divi_by_zero_faults :
    got (fun t => (t.ph, t.acc, t.pc, t.out)) (step (combining 0x12000005 10 0)) =
      some (.error, 10, 0, { trace := some 0, result := .errorDivideByZero }) := by decide
theorem test_divi_combine :
    got (fun t => (t.acc, t.pc)) (step (combining 0x12000005 (-7) 2)) =
      some (0xFFFFFFFD#32, 1) := by decide
theorem test_divm_by_zero_faults :
    got (fun t => (t.ph, t.acc, t.pc, t.out)) (step (combining 0x13000000 10 0)) =
      some (.error, 10, 0, { trace := some 0, result := .errorDivideByZero }) := by decide
theorem test_divm_combine :
    got (fun t => (t.acc, t.pc)) (step (combining 0x13000002 (-7) 2)) =
      some (0xFFFFFFFD#32, 1) := by decide
theorem test_mod_by_zero_faults :
    got (fun t => (t.ph, t.acc, t.pc, t.out)) (step (combining 0x14000005 10 0)) =
      some (.error, 10, 0, { trace := some 0, result := .errorDivideByZero }) := by decide
theorem test_mod_combine :
    got (fun t => (t.acc, t.pc)) (step (combining 0x14000005 (-7) 2)) =
      some (0xFFFFFFFF#32, 1) := by decide
theorem test_modi_by_zero_faults :
    got (fun t => (t.ph, t.acc, t.pc, t.out)) (step (combining 0x15000005 10 0)) =
      some (.error, 10, 0, { trace := some 0, result := .errorDivideByZero }) := by decide
theorem test_modi_combine :
    got (fun t => (t.acc, t.pc)) (step (combining 0x15000005 (-7) 2)) =
      some (0xFFFFFFFF#32, 1) := by decide
theorem test_modm_by_zero_faults :
    got (fun t => (t.ph, t.acc, t.pc, t.out)) (step (combining 0x16000000 10 0)) =
      some (.error, 10, 0, { trace := some 0, result := .errorDivideByZero }) := by decide
theorem test_modm_combine :
    got (fun t => (t.acc, t.pc)) (step (combining 0x16000002 (-7) 2)) =
      some (0xFFFFFFFF#32, 1) := by decide
theorem test_and_operand :
    got (fun t => (t.vr, t.uc, t.pc)) (step (executing 0x17000005 0 { small 8 [(5, 255)] with ar := 5 })) =
      some (255, 1, 0) := by decide
theorem test_and_combine :
    got (fun t => (t.acc, t.pc)) (step (combining 0x17000005 3855 255)) =
      some (0x0000000F#32, 1) := by decide
theorem test_andi_operand :
    got (fun t => (t.vr, t.uc, t.pc)) (step (executing 0x18000005 0 { small 8 [(5, 6), (6, 255)] with ar := 6 })) =
      some (255, 1, 0) := by decide
theorem test_andi_combine :
    got (fun t => (t.acc, t.pc)) (step (combining 0x18000005 3855 255)) =
      some (0x0000000F#32, 1) := by decide
theorem test_andm_operand :
    got (fun t => (t.vr, t.uc, t.pc)) (step (executing 0x19FFFFFF 0 { small 8 [] with ar := 0 })) =
      some (16777215, 1, 0) := by decide
theorem test_andm_combine :
    got (fun t => (t.acc, t.pc)) (step (combining 0x19FFFFFF (-1) 16777215)) =
      some (0x00FFFFFF#32, 1) := by decide
theorem test_or_operand :
    got (fun t => (t.vr, t.uc, t.pc)) (step (executing 0x1A000005 0 { small 8 [(5, 240)] with ar := 5 })) =
      some (240, 1, 0) := by decide
theorem test_or_combine :
    got (fun t => (t.acc, t.pc)) (step (combining 0x1A000005 3840 240)) =
      some (0x00000FF0#32, 1) := by decide
theorem test_ori_operand :
    got (fun t => (t.vr, t.uc, t.pc)) (step (executing 0x1B000005 0 { small 8 [(5, 6), (6, 1)] with ar := 6 })) =
      some (1, 1, 0) := by decide
theorem test_ori_combine :
    got (fun t => (t.acc, t.pc)) (step (combining 0x1B000005 (-2147483648) 1)) =
      some (0x80000001#32, 1) := by decide
theorem test_orm_operand :
    got (fun t => (t.vr, t.uc, t.pc)) (step (executing 0x1C0000F0 0 { small 8 [] with ar := 0 })) =
      some (240, 1, 0) := by decide
theorem test_orm_combine :
    got (fun t => (t.acc, t.pc)) (step (combining 0x1C0000F0 3840 240)) =
      some (0x00000FF0#32, 1) := by decide
theorem test_not :
    ([0, -1, 5, 2147483647, -2147483648] : List Word).map (fun a =>
      got (fun t => t.acc) (step (executing 0x1D00ABCD 0 { small 4 [] with acc := a }))) =
    [some 0xFFFFFFFF, some 0, some 0xFFFFFFFA, some 0x80000000, some 0x7FFFFFFF] := by decide
/-- The rows of 95_test_vectors.md 2.3 with the corners of DIV and MOD. -/
theorem test_division_corners :
    ([(7, 2), (-7, 2), (7, -2), (-7, -2), (-2147483648, -1), (5, 7)] : List (Word × Word)).map
      (fun p => (aluDiv p.1 p.2, aluMod p.1 p.2)) =
    [(3, 1), (-3, -1), (-3, 1), (3, -1), (-2147483648, 0), (0, 5)] := by decide

-- ---------------------------------------------------------------- jumps (R200 to R227; vectors 2.5 and 2.6)

theorem test_jmp :
    ([6, 14, -1] : List Word).map (fun v =>
      got (fun t => (t.pc, t.ph)) (step (executing 0x1E000003 0 { small 8 [(3, v)] with ar := 3 }))) =
    [some (6, .fetch), some (6, .fetch), some (7, .fetch)] := by decide
theorem test_jmpi :
    got (fun t => (t.pc, t.ph)) (step (executing 0x1F000003 0 { small 8 [(3, 5), (5, 2)] with ar := 5 })) =
      some (2, .fetch) := by decide
theorem test_jmpm :
    got (fun t => (t.pc, t.ph)) (step (executing 0x2000000A 0 (small 8 []))) = some (2, .fetch) := by decide
theorem test_jmpm_at_the_end_does_not_halt :
    got (fun t => (t.pc, t.ph)) (step (executing 0x20000000 0 { small 4 [] with pc := 3 })) = some (0, .fetch) := by
  decide

/-- The accumulators of 95_test_vectors.md 2.5. -/
def accumulators : List Word := [0, 1, -1, 2147483647, -2147483648]

/-- JF after the test micro-step of a word, for each of the accumulators. -/
def testsOf (w : Word) : List (Option Bool) :=
  accumulators.map fun a => got (fun t => t.jf) (step (executing w 0 { small 8 [] with acc := a }))

theorem test_jmpeq_predicate :
    testsOf 0x21000003 = [some true, some false, some false, some false, some false] := by decide
theorem test_jmpeq_taken :
    got (fun t => (t.pc, t.jf, t.ph))
      (step (executing 0x21000003 1 { small 8 [(3, 6)] with ar := 3, jf := true })) =
      some (6, false, .fetch) := by decide
theorem test_jmpeqi_predicate :
    testsOf 0x22000003 = [some true, some false, some false, some false, some false] := by decide
theorem test_jmpeqi_taken :
    got (fun t => (t.pc, t.jf, t.ph))
      (step (executing 0x22000003 1 { small 8 [(3, 5), (5, 2)] with ar := 5, jf := true })) =
      some (2, false, .fetch) := by decide
theorem test_jmpeqm_predicate :
    testsOf 0x2300000A = [some true, some false, some false, some false, some false] := by decide
theorem test_jmpeqm_taken :
    got (fun t => (t.pc, t.jf, t.ph))
      (step (executing 0x2300000A 1 { small 8 [] with ar := 0, jf := true })) =
      some (2, false, .fetch) := by decide
theorem test_jmpne_predicate :
    testsOf 0x24000003 = [some false, some true, some true, some true, some true] := by decide
theorem test_jmpne_taken :
    got (fun t => (t.pc, t.jf, t.ph))
      (step (executing 0x24000003 1 { small 8 [(3, 6)] with ar := 3, jf := true })) =
      some (6, false, .fetch) := by decide
theorem test_jmpnei_predicate :
    testsOf 0x25000003 = [some false, some true, some true, some true, some true] := by decide
theorem test_jmpnei_taken :
    got (fun t => (t.pc, t.jf, t.ph))
      (step (executing 0x25000003 1 { small 8 [(3, 5), (5, 2)] with ar := 5, jf := true })) =
      some (2, false, .fetch) := by decide
theorem test_jmpnem_predicate :
    testsOf 0x2600000A = [some false, some true, some true, some true, some true] := by decide
theorem test_jmpnem_taken :
    got (fun t => (t.pc, t.jf, t.ph))
      (step (executing 0x2600000A 1 { small 8 [] with ar := 0, jf := true })) =
      some (2, false, .fetch) := by decide
theorem test_jmpgt_predicate :
    testsOf 0x27000003 = [some false, some true, some false, some true, some false] := by decide
theorem test_jmpgt_taken :
    got (fun t => (t.pc, t.jf, t.ph))
      (step (executing 0x27000003 1 { small 8 [(3, 6)] with ar := 3, jf := true })) =
      some (6, false, .fetch) := by decide
theorem test_jmpgti_predicate :
    testsOf 0x28000003 = [some false, some true, some false, some true, some false] := by decide
theorem test_jmpgti_taken :
    got (fun t => (t.pc, t.jf, t.ph))
      (step (executing 0x28000003 1 { small 8 [(3, 5), (5, 2)] with ar := 5, jf := true })) =
      some (2, false, .fetch) := by decide
theorem test_jmpgtm_predicate :
    testsOf 0x2900000A = [some false, some true, some false, some true, some false] := by decide
theorem test_jmpgtm_taken :
    got (fun t => (t.pc, t.jf, t.ph))
      (step (executing 0x2900000A 1 { small 8 [] with ar := 0, jf := true })) =
      some (2, false, .fetch) := by decide
theorem test_jmplt_predicate :
    testsOf 0x2A000003 = [some false, some false, some true, some false, some true] := by decide
theorem test_jmplt_taken :
    got (fun t => (t.pc, t.jf, t.ph))
      (step (executing 0x2A000003 1 { small 8 [(3, 6)] with ar := 3, jf := true })) =
      some (6, false, .fetch) := by decide
theorem test_jmplti_predicate :
    testsOf 0x2B000003 = [some false, some false, some true, some false, some true] := by decide
theorem test_jmplti_taken :
    got (fun t => (t.pc, t.jf, t.ph))
      (step (executing 0x2B000003 1 { small 8 [(3, 5), (5, 2)] with ar := 5, jf := true })) =
      some (2, false, .fetch) := by decide
theorem test_jmpltm_predicate :
    testsOf 0x2C00000A = [some false, some false, some true, some false, some true] := by decide
theorem test_jmpltm_taken :
    got (fun t => (t.pc, t.jf, t.ph))
      (step (executing 0x2C00000A 1 { small 8 [] with ar := 0, jf := true })) =
      some (2, false, .fetch) := by decide
theorem test_jmpge_predicate :
    testsOf 0x2D000003 = [some true, some true, some false, some true, some false] := by decide
theorem test_jmpge_taken :
    got (fun t => (t.pc, t.jf, t.ph))
      (step (executing 0x2D000003 1 { small 8 [(3, 6)] with ar := 3, jf := true })) =
      some (6, false, .fetch) := by decide
theorem test_jmpgei_predicate :
    testsOf 0x2E000003 = [some true, some true, some false, some true, some false] := by decide
theorem test_jmpgei_taken :
    got (fun t => (t.pc, t.jf, t.ph))
      (step (executing 0x2E000003 1 { small 8 [(3, 5), (5, 2)] with ar := 5, jf := true })) =
      some (2, false, .fetch) := by decide
theorem test_jmpgem_predicate :
    testsOf 0x2F00000A = [some true, some true, some false, some true, some false] := by decide
theorem test_jmpgem_taken :
    got (fun t => (t.pc, t.jf, t.ph))
      (step (executing 0x2F00000A 1 { small 8 [] with ar := 0, jf := true })) =
      some (2, false, .fetch) := by decide
theorem test_jmple_predicate :
    testsOf 0x30000003 = [some true, some false, some true, some false, some true] := by decide
theorem test_jmple_taken :
    got (fun t => (t.pc, t.jf, t.ph))
      (step (executing 0x30000003 1 { small 8 [(3, 6)] with ar := 3, jf := true })) =
      some (6, false, .fetch) := by decide
theorem test_jmplei_predicate :
    testsOf 0x31000003 = [some true, some false, some true, some false, some true] := by decide
theorem test_jmplei_taken :
    got (fun t => (t.pc, t.jf, t.ph))
      (step (executing 0x31000003 1 { small 8 [(3, 5), (5, 2)] with ar := 5, jf := true })) =
      some (2, false, .fetch) := by decide
theorem test_jmplem_predicate :
    testsOf 0x3200000A = [some true, some false, some true, some false, some true] := by decide
theorem test_jmplem_taken :
    got (fun t => (t.pc, t.jf, t.ph))
      (step (executing 0x3200000A 1 { small 8 [] with ar := 0, jf := true })) =
      some (2, false, .fetch) := by decide
theorem test_untaken_jump_at_the_end_halts :
    got (fun t => (t.pc, t.ph)) (step (executing 0x21000000 1 { small 4 [] with pc := 3, acc := 1 })) =
      some (3, .halt) ∧
    got (fun t => (t.pc, t.ph)) (step (executing 0x23000000 1 { small 4 [] with pc := 2, acc := 1 })) =
      some (3, .fetch) := by decide

-- ---------------------------------------------------------------- reset, host operations, placing an instruction

theorem test_reset_in_error :
    { small 4 [(1, 9)] with ph := .error, flt := .divideByZero, acc := 3, jf := true }.hostReset = small 4 [] := by
  decide
theorem test_load_memory :
    got (fun t => (t.mem, t.ph, t.getMemory)) (loadMemory [0, 5, 0, -1] { small 4 [(0, 2)] with ph := .halt }) =
      some ([(1, 5), (3, -1)], .halt, [0, 5, 0, -1]) := by decide
theorem test_placed_instruction_runs_next :
    got (fun t => (t.vr, t.uc)) (step (State.reset.withFetchWord 32 0x0A000004)) = some (4, 1) ∧
    got (fun t => t.acc) (step (State.reset.withFetchWord 32 0x03000000)) = some 0x03000000#32 := by decide
theorem test_unreachable_pair_refused :
    refusedWith (step (executing 0x00000000 1 (small 4 []))) = some .unreachableMicroStep := by decide

-- ---------------------------------------------------------------- witnesses: helpers

/-- A result that answers a state with a decidable property. -/
theorem exists_next {r : Result} (P : State → Prop) [DecidablePred P]
    (h : got (fun t => decide (P t)) r = some true) : ∃ t, r = .next t ∧ P t := by
  cases r with
  | next t => exact ⟨t, rfl, by simpa [got] using h⟩
  | fault f => simp [got] at h
  | refused f => simp [got] at h

/-- A small core before FETCH is about to run the instruction its word at 0 decodes to. -/
theorem small_fetches {n : Nat} {cells : Memory} {i : Instr} (hn : 0 < n) (h : decode (cells.read 0) = i) :
    (small n cells).fetches i := ⟨⟨rfl, rfl⟩, hn, h⟩

theorem small_inv {n : Nat} {cells : Memory} (hn : 1 ≤ n ∧ n ≤ Config.maxMemorySize) (hw : cells.wf)
    (hb : cells.bounded n) : (small n cells).Inv where
  cfg := ⟨hn.1, hn.2, (by decide : OpcodeMap.default.wf)⟩
  memWf := hw
  memBounded := hb
  pc := hn.1
  ar := hn.1
  pair := trivial
  jf := fun h => absurd h (by simp [small, State.resetOf])
  flt := by constructor <;> intro h <;> cases h
  cause := fun h => by cases h

/-- A core in the divide-by-zero fault of `DIVM 0`. -/
def faultedSmall : State := { small 4 [] with ir := 0x13000000, ph := .error, flt := .divideByZero }

theorem faultedSmall_inv : faultedSmall.Inv where
  cfg := by decide
  memWf := by decide
  memBounded := by decide
  pc := by decide
  ar := by decide
  pair := rfl
  jf := fun h => absurd h (by decide)
  flt := by decide
  cause := fun _ => by decide

/-- A core about to take the conditional jump `JMPEQM 0`. -/
def jumpingSmall : State := executing 0x23000000 1 { small 4 [] with pc := 3, ar := 3, jf := true }

theorem jumpingSmall_inv : jumpingSmall.Inv where
  cfg := by decide
  memWf := by decide
  memBounded := by decide
  pc := by decide
  ar := by decide
  pair := fun _ => by decide
  jf := fun _ => by decide
  flt := by decide
  cause := fun h => absurd h (by decide)

-- ---------------------------------------------------------------- witnesses: the codec, values and memory

theorem witness_DecodeOfEncodeIsTheInstruction :
    OpcodeMap.default.wf ∧ OpcodeMap.wf OpcodeMap.default.reverse ∧
    OpcodeMap.wf (OpcodeMap.default.map (· + 200)) := by decide
theorem witness_EncodeOfDecodeIsTheWord :
    OpcodeMap.default.wf ∧ opcField 0x00000007 ∈ OpcodeMap.default ∧ opcField 0x32FFFFFF ∈ OpcodeMap.default := by decide
theorem witness_UnknownOpcodeDecodesAsNop :
    51 ≤ (opcField 0x33000000).toNat ∧ 51 ≤ (opcField 0xFFFFFFFF).toNat ∧ opcField 0x33000001 ∉ OpcodeMap.default := by
  decide
/-- The mnemonics of R74, written out in its table's order. -/
def r74Mnemonics : List (Operand24 → Instr) :=
  [.nop, .halt, .brk, .load, .loadi, .loadm, .store, .storei, .add, .addi, .addm, .sub, .subi, .subm, .mult, .multi,
    .multm, .div, .divi, .divm, .mod, .modi, .modm, .and, .andi, .andm, .or, .ori, .orm, .not, .jmp, .jmpi, .jmpm,
    .jmpeq, .jmpeqi, .jmpeqm, .jmpne, .jmpnei, .jmpnem, .jmpgt, .jmpgti, .jmpgtm, .jmplt, .jmplti, .jmpltm, .jmpge,
    .jmpgei, .jmpgem, .jmple, .jmplei, .jmplem]
theorem witness_DefaultTableDecodesEveryRow :
    r74Mnemonics[0]? = some Instr.nop ∧ r74Mnemonics[29]? = some Instr.not ∧ r74Mnemonics[50]? = some Instr.jmplem :=
  ⟨rfl, rfl, rfl⟩
theorem witness_WordReductionIsEuclidean : 0 < 1 ∧ 0 < Config.maxMemorySize := by decide
theorem witness_QuotientTruncatesAndRemainderFollowsDividend :
    (-1#32) ≠ 0#32 ∧ ((-2147483648#32).toInt = -2 ^ 31 ∧ (-1#32).toInt = -1) ∧
    ¬ ((-7#32).toInt = -2 ^ 31 ∧ (2#32).toInt = -1) ∧ 0 ≤ (7#32).toInt ∧ (-7#32).toInt ≤ 0 := by decide
theorem witness_MemoryIsDeterminedByItsReads :
    ∃ m m' : Memory, m.wf ∧ m'.wf ∧ m ≠ [] ∧ ∀ a, m.read a = m'.read a :=
  ⟨[(1, 5)], [(1, 5)], by decide, by decide, by decide, fun _ => rfl⟩

-- ---------------------------------------------------------------- witnesses: reset and host operations

theorem witness_LoadMemoryReplacesMemory :
    ([0, 5, 0, -1] : List Word).length = (small 4 []).cfg.n ∧ ([] : List Word).length ≠ (small 4 []).cfg.n := by decide
theorem witness_ConstructionStartsInResetOrIsRefused :
    Config.default.wf ∧ Config.wf { n := 1, opcodeMap := OpcodeMap.default } ∧
    (∃ c : Config, c.n = 0) ∧ ∃ t, construct { n := 1, opcodeMap := OpcodeMap.default } = .next t ∧ True :=
  ⟨by decide, by decide, ⟨{ n := 0, opcodeMap := [] }, rfl⟩, exists_next _ (by decide)⟩

-- ---------------------------------------------------------------- witnesses: the cycle engine

theorem witness_StepPerformsTheMicroStepOfThePhase :
    (small 4 []).ph = .fetch ∧ ({ small 4 [] with ph := .indirect } : State).ph = .indirect ∧
    (executing 0 0 (small 4 [])).ph = .execute := by decide
theorem witness_FetchedInstructionIsExecuted :
    (small 8 [(0, 0x0300000C)]).fetches (.load 12) ∧ (small 8 [(0, 0x04000005), (5, -1)]).fetches (.loadi 5) ∧
    (small 8 [(0, 0x05000003)]).fetches (.loadm 3) ∧ (small 1 []).fetches (.nop 0) :=
  ⟨small_fetches (by decide) (by decide), small_fetches (by decide) (by decide), small_fetches (by decide) (by decide),
    small_fetches (by decide) (by decide)⟩
theorem witness_FetchReadsTheWordAtPc :
    ((small 4 []).ph = .fetch ∧ (small 4 []).uc = 0) ∧
    ∃ s : State, s.ph = .fetch ∧ s.uc = 1 ∧ s.ar < s.cfg.n ∧ s.ar + 1 = s.cfg.n :=
  ⟨by decide, { small 4 [] with uc := 1, ar := 3 }, by decide⟩
theorem witness_DirectAddressIsResolvedInOneMicroStep :
    ∃ s t u : State, (s.ph = .indirect ∧ s.uc = 0 ∧ addrClass s.current = .direct) ∧
      (t.ph = .indirect ∧ t.uc = 0 ∧ addrClass t.current = .immediate) ∧
      (u.ph = .indirect ∧ u.uc = 0 ∧ addrClass u.current = .none) :=
  ⟨{ small 8 [] with ir := 0x0300000C, ph := .indirect }, { small 8 [] with ir := 0x05000003, ph := .indirect },
    { small 8 [] with ph := .indirect }, by decide⟩
theorem witness_PointerIsFollowedInTwoMicroSteps :
    ∃ s t : State, (s.ph = .indirect ∧ addrClass s.current = .indirect ∧ s.uc = 0) ∧
      (t.ph = .indirect ∧ addrClass t.current = .indirect ∧ t.uc = 1 ∧ t.ar < t.cfg.n) :=
  ⟨{ small 8 [] with ir := 0x04000005, ph := .indirect },
    { small 8 [(5, -1)] with ir := 0x04000005, ph := .indirect, uc := 1, ar := 5 }, by decide⟩
theorem witness_AdvanceStopsAtTheLastAddress :
    ∃ s t u : State, (1 ≤ s.cfg.n ∧ s.pc + 1 = s.cfg.n - 1 ∧ s.pc < s.cfg.n - 1) ∧
      (1 ≤ t.cfg.n ∧ t.pc = t.cfg.n - 1 ∧ ¬ t.pc < t.cfg.n - 1) ∧ (u.cfg.n = 1 ∧ ¬ u.pc < u.cfg.n - 1) :=
  ⟨{ small 4 [] with pc := 2 }, { small 4 [] with pc := 3 }, small 1 [], by decide⟩
theorem witness_HaltAndErrorAreTerminal :
    ({ small 4 [] with ph := .halt } : State).ph = .halt ∧ faultedSmall.ph = .error := by decide

-- ---------------------------------------------------------------- witnesses: EXECUTE micro-steps

theorem witness_ControlInstructionsExecute : (small 4 []).uc = 0 := rfl
theorem witness_LoadsAndNotWriteTheAccumulator :
    ∃ s : State, s.uc = 0 ∧ s.ar < s.cfg.n ∧ s.mem.read s.ar ≠ s.acc := ⟨{ small 8 [(7, 42)] with ar := 7 }, by decide⟩
theorem witness_StoresWriteTheWordAtAr :
    ∃ s : State, s.uc = 0 ∧ s.ar < s.cfg.n ∧ s.mem.wf ∧ s.mem.read s.ar ≠ s.acc :=
  ⟨{ small 8 [(7, 42)] with ar := 7, acc := 5 }, by decide⟩
theorem witness_OperandMicroStepLoadsTheValueRegister :
    (Instr.modi, narrowed Int.tmod) ∈ indirectDivision ∧ (Instr.orm, (· ||| ·)) ∈ immediateLogic ∧
    ∃ s : State, s.uc = 0 ∧ s.ar < s.cfg.n :=
  ⟨by simp [indirectDivision], by simp [immediateLogic], { small 8 [(7, 42)] with ar := 7 }, by decide⟩
theorem witness_CombineMicroStepWritesTheAccumulator :
    (Instr.sub, narrowed (· - ·)) ∈ directArithmetic ∧ (Instr.mod, narrowed Int.tmod) ∈ directDivision ∧
    ∃ s t : State, (s.uc = 1 ∧ s.vr ≠ 0#32) ∧ (t.uc = 1 ∧ t.vr = 0#32) :=
  ⟨by simp [directArithmetic], by simp [directDivision], { small 8 [] with uc := 1, vr := 1 },
    { small 8 [] with uc := 1 }, by decide⟩
theorem witness_DivideByZeroEntersTheErrorPhase : ∃ s : State, s.uc = 1 ∧ s.vr = 0#32 ∧ s.acc ≠ 0#32 :=
  ⟨{ small 8 [] with uc := 1, acc := 10 }, by decide⟩
theorem witness_UnconditionalJumpsWritePc : ∃ s : State, s.uc = 0 ∧ s.ar < s.cfg.n ∧ s.targetAt s.ar ≠ s.pc :=
  ⟨{ small 8 [(7, -2)] with ar := 7 }, by decide⟩
theorem witness_ConditionalJumpsTestTheAccumulator :
    directConditions.length = 6 ∧ indirectConditions.length = 6 ∧ immediateConditions.length = 6 ∧
      (small 4 []).uc = 0 := by decide
theorem witness_ConditionalJumpsResolveByTheFlag :
    ∃ s t : State, (s.uc = 1 ∧ s.jf = false) ∧ (t.uc = 1 ∧ t.jf = true ∧ t.ar < t.cfg.n) :=
  ⟨{ small 8 [] with uc := 1 }, { small 8 [(3, 6)] with uc := 1, ar := 3, jf := true }, by decide⟩

-- ---------------------------------------------------------------- witnesses: whole instructions

theorem witness_HaltInstructionHalts : (small 1 [(0, 0x01000005)]).fetches (.halt 5) :=
  small_fetches (by decide) (by decide)
theorem witness_NopUnknownAndBreakOnlyAdvance :
    (small 1 []).fetches (.nop 0) ∧ (small 2 [(0, 0x02000000)]).fetches (.brk 0) ∧
    (small 2 [(0, 0xFF123456)]).atFetch ∧ (small 2 [(0, 0xFF123456)]).pc < 2 ∧
    opcField ((small 2 [(0, 0xFF123456)]).mem.read 0) ∉ OpcodeMap.default :=
  ⟨small_fetches (by decide) (by decide), small_fetches (by decide) (by decide), ⟨rfl, rfl⟩, by decide, by decide⟩
theorem witness_LoadInstructionsLoad :
    (small 8 [(0, 0x0300000C)]).fetches (.load 12) ∧ (small 8 [(0, 0x04000005), (5, -1)]).fetches (.loadi 5) ∧
    (small 1 [(0, 0x05FFFFFF)]).fetches (.loadm 0xFFFFFF) :=
  ⟨small_fetches (by decide) (by decide), small_fetches (by decide) (by decide), small_fetches (by decide) (by decide)⟩
theorem witness_StoreInstructionsStore :
    Memory.wf [(0, 0x06000009)] ∧ (small 8 [(0, 0x06000009)]).fetches (.store 9) ∧
    Memory.wf [(0, 0x07000002), (2, 2)] ∧ (small 8 [(0, 0x07000002), (2, 2)]).fetches (.storei 2) :=
  ⟨by decide, small_fetches (by decide) (by decide), by decide, small_fetches (by decide) (by decide)⟩
theorem witness_DirectAndImmediateArithmeticComputes :
    (Instr.add, narrowed (· + ·)) ∈ directArithmetic ∧ (small 8 [(0, 0x08000005), (5, 1)]).fetches (.add 5) ∧
    (Instr.subm, narrowed (· - ·)) ∈ immediateArithmetic ∧ (small 1 [(0, 0x0D000001)]).fetches (.subm 1) :=
  ⟨by simp [directArithmetic], small_fetches (by decide) (by decide), by simp [immediateArithmetic],
    small_fetches (by decide) (by decide)⟩
theorem witness_IndirectArithmeticAndLogicCompute :
    ((Instr.addi, narrowed (· + ·)) ∈ indirectArithmetic ∧ (small 8 [(0, 0x09000005), (5, -1)]).fetches (.addi 5)) ∧
    ((Instr.and, (· &&& ·)) ∈ directLogic ∧ (small 8 [(0, 0x17000005), (5, 255)]).fetches (.and 5)) ∧
    ((Instr.orm, (· ||| ·)) ∈ immediateLogic ∧ (small 1 [(0, 0x1C0000F0)]).fetches (.orm 0xF0)) :=
  ⟨⟨by simp [indirectArithmetic], small_fetches (by decide) (by decide)⟩,
    ⟨by simp [directLogic], small_fetches (by decide) (by decide)⟩,
    ⟨by simp [immediateLogic], small_fetches (by decide) (by decide)⟩⟩
theorem witness_DivisionInstructionsDivide :
    ((Instr.div, narrowed Int.tdiv) ∈ directDivision ∧ (small 8 [(0, 0x11000005), (5, 2)]).fetches (.div 5) ∧
      (small 8 [(0, 0x11000005), (5, 2)]).mem.read ((small 8 []).directAddress 5) ≠ 0#32) ∧
    ((Instr.modi, narrowed Int.tmod) ∈ indirectDivision ∧
      (small 8 [(0, 0x15000005), (5, 6), (6, -1)]).fetches (.modi 5) ∧
      (small 8 [(0, 0x15000005), (5, 6), (6, -1)]).mem.read
        ((small 8 [(0, 0x15000005), (5, 6), (6, -1)]).indirectAddress 5) ≠ 0#32) ∧
    ((Instr.divm, narrowed Int.tdiv) ∈ immediateDivision ∧ (small 8 [(0, 0x13000001)]).fetches (.divm 1) ∧
      (1 : Operand24) ≠ 0#24) :=
  ⟨⟨by simp [directDivision], small_fetches (by decide) (by decide), by decide⟩,
    ⟨by simp [indirectDivision], small_fetches (by decide) (by decide), by decide⟩,
    ⟨by simp [immediateDivision], small_fetches (by decide) (by decide), by decide⟩⟩
theorem witness_DivisionByZeroFaults :
    ((Instr.div, narrowed Int.tdiv) ∈ directDivision ∧ (small 4 [(0, 0x11000003)]).fetches (.div 3) ∧
      (small 4 [(0, 0x11000003)]).mem.read ((small 4 []).directAddress 3) = 0#32) ∧
    ((Instr.modi, narrowed Int.tmod) ∈ indirectDivision ∧ (small 8 [(0, 0x15000005), (5, 6)]).fetches (.modi 5) ∧
      (small 8 [(0, 0x15000005), (5, 6)]).mem.read ((small 8 [(0, 0x15000005), (5, 6)]).indirectAddress 5) = 0#32) ∧
    ((Instr.divm, narrowed Int.tdiv) ∈ immediateDivision ∧ (small 8 [(0, 0x13000000)]).fetches (.divm 0)) :=
  ⟨⟨by simp [directDivision], small_fetches (by decide) (by decide), by decide⟩,
    ⟨by simp [indirectDivision], small_fetches (by decide) (by decide), by decide⟩,
    ⟨by simp [immediateDivision], small_fetches (by decide) (by decide)⟩⟩
theorem witness_NotInstructionComplements : (small 1 [(0, 0x1D00ABCD)]).fetches (.not 0xABCD) :=
  small_fetches (by decide) (by decide)
theorem witness_JumpInstructionsJump :
    (small 8 [(0, 0x1E000003), (3, 14)]).fetches (.jmp 3) ∧
    (small 8 [(0, 0x1F000003), (3, 5), (5, -1)]).fetches (.jmpi 3) ∧ (small 8 [(0, 0x2000000A)]).fetches (.jmpm 10) :=
  ⟨small_fetches (by decide) (by decide), small_fetches (by decide) (by decide), small_fetches (by decide) (by decide)⟩
theorem witness_ConditionalJumpInstructionsBranch :
    (∃ c ∈ directConditions, (small 8 [(0, 0x27000003), (3, 6)]).fetches (c.1 3)) ∧
    (∃ c ∈ indirectConditions, (small 8 [(0, 0x22000003), (3, 5), (5, 2)]).fetches (c.1 3)) ∧
    (∃ c ∈ immediateConditions, (small 1 [(0, 0x32FFFFFF)]).fetches (c.1 0xFFFFFF)) :=
  ⟨⟨_, List.mem_of_getElem? (i := 2) rfl, small_fetches (by decide) (by decide)⟩,
    ⟨_, List.mem_of_getElem? (i := 0) rfl, small_fetches (by decide) (by decide)⟩,
    ⟨_, List.mem_of_getElem? (i := 5) rfl, small_fetches (by decide) (by decide)⟩⟩
theorem witness_NextFetchSeesTheStoredWord :
    Memory.wf [(0, 0x06000001)] ∧ (small 2 [(0, 0x06000001)]).fetches (.store 1) ∧
    (small 2 [(0, 0x06000001)]).directAddress 1 = (small 2 [(0, 0x06000001)]).pc + 1 :=
  ⟨by decide, small_fetches (by decide) (by decide), by decide⟩

-- ---------------------------------------------------------------- witnesses: the machine as a whole

theorem witness_StepKeepsTheInvariant :
    (small 1 []).Inv ∧ (∃ t, step (small 1 []) = .next t ∧ t.uc = 1) ∧
    jumpingSmall.Inv ∧ (∃ t, step jumpingSmall = .next t ∧ t.pc = 0 ∧ t.jf = false) :=
  ⟨small_inv (by decide) (by decide) (by decide), exists_next _ (by decide), jumpingSmall_inv,
    exists_next _ (by decide)⟩
theorem witness_StepAlwaysAnswersANextState :
    (small 1 []).Inv ∧ jumpingSmall.Inv ∧ faultedSmall.Inv :=
  ⟨small_inv (by decide) (by decide) (by decide), jumpingSmall_inv, faultedSmall_inv⟩
theorem witness_HostOperationsKeepTheInvariant :
    faultedSmall.Inv ∧ (∃ t, loadMemory [1, 0, 2, 0] faultedSmall = .next t ∧ t.ph = .error) ∧
    ∃ t, construct { n := 1, opcodeMap := OpcodeMap.default } = .next t ∧ t.pc = 0 :=
  ⟨faultedSmall_inv, exists_next _ (by decide), exists_next _ (by decide)⟩
theorem witness_AddressRegisterFollowsThePhase :
    (small 1 []).Inv ∧ (small 1 []).AddressResolved ∧ (∃ t, step (small 1 []) = .next t ∧ t.ar = t.pc) ∧
    jumpingSmall.Inv ∧ jumpingSmall.AddressResolved :=
  ⟨small_inv (by decide) (by decide) (by decide), trivial, exists_next _ (by decide), jumpingSmall_inv, rfl⟩
theorem witness_DataRegistersHaveOnlyTheirWriters :
    (∃ s t : State, step s = .next t ∧ t.acc ≠ s.acc) ∧ (∃ s t : State, step s = .next t ∧ t.vr ≠ s.vr) ∧
    ∃ s t : State, step s = .next t ∧ t.ir ≠ s.ir :=
  ⟨⟨executing 0x05000003 0 (small 4 []), exists_next _ (by decide)⟩,
    ⟨executing 0x0A000004 0 (small 4 []), exists_next _ (by decide)⟩,
    ⟨{ small 4 [(0, 0x01000000)] with uc := 1 }, exists_next _ (by decide)⟩⟩
theorem witness_AddressesHaveOnlyTheirWriters :
    (∃ s t : State, step s = .next t ∧ s.ph = .indirect) ∧ (∃ s t : State, step s = .next t ∧ t.pc ≠ s.pc) ∧
    ∃ s t : State, step s = .next t ∧ t.ar ≠ s.ar :=
  ⟨⟨{ small 4 [] with ph := .indirect }, exists_next _ (by decide)⟩, ⟨jumpingSmall, exists_next _ (by decide)⟩,
    ⟨{ small 4 [] with pc := 3 }, exists_next _ (by decide)⟩⟩
theorem witness_FlagAndFaultHaveOnlyTheirWriters :
    (∃ s t : State, step s = .next t ∧ t.jf ≠ s.jf) ∧ ∃ s t : State, step s = .next t ∧ t.flt ≠ s.flt :=
  ⟨⟨jumpingSmall, exists_next _ (by decide)⟩, ⟨combining 0x13000000 10 0, exists_next _ (by decide)⟩⟩
theorem witness_OnlyStoresChangeMemory : ∃ s t : State, step s = .next t ∧ t.mem ≠ s.mem ∧ s.mem.wf :=
  ⟨executing 0x06000003 0 { small 4 [] with acc := 5, ar := 3 }, exists_next _ (by decide)⟩
theorem witness_EveryChangeIsAnnounced :
    ∃ s t : State, step s = .next t ∧ t.acc ≠ s.acc ∧ t.ph ≠ s.ph ∧ t.ph ≠ .error ∧ t.out.pc = some t.pc :=
  ⟨executing 0x05000003 0 (small 4 []), exists_next _ (by decide)⟩
theorem witness_EachMicroStepEmitsOneTrace :
    (∃ s t : State, step s = .next t ∧ s.ph = .execute) ∧ ∃ s t : State, step s = .next t ∧ s.ph = .error :=
  ⟨⟨jumpingSmall, exists_next _ (by decide)⟩, ⟨faultedSmall, exists_next _ (by decide)⟩⟩
theorem witness_StepReturnsTheErrorExactlyInAFault :
    (∃ s t : State, step s = .next t ∧ t.out.result = .ok) ∧
    ∃ s t : State, step s = .next t ∧ t.out.result = .errorDivideByZero ∧ s.ph = .execute :=
  ⟨⟨jumpingSmall, exists_next _ (by decide)⟩, ⟨combining 0x13000000 10 0, exists_next _ (by decide)⟩⟩
theorem witness_IgnoredOperandBitsChangeNothing :
    ∃ (s : State) (w : Word) (t : State), step s = .next t ∧ (s.ph = .indirect ∨ s.ph = .execute) ∧
      addrClass s.current = .none ∧ opcField w = opcField s.ir ∧ w ≠ s.ir :=
  ⟨executing 0x1D00ABCD 0 (small 4 []), 0x1D000001, exists_next _ (by decide)⟩
theorem witness_InstructionsTakeTheTablesMicroSteps :
    (small 1 []).Inv ∧ (small 1 []).fetches (.nop 0) ∧
    (small 8 [(0, 0x22000003), (3, 5), (5, 2)]).Inv ∧ (small 8 [(0, 0x22000003), (3, 5), (5, 2)]).fetches (.jmpeqi 3) :=
  ⟨small_inv (by decide) (by decide) (by decide), small_fetches (by decide) (by decide),
    small_inv (by decide) (by decide) (by decide), small_fetches (by decide) (by decide)⟩

/-- Before the step of a jump rule the core is in EXECUTE with a jump in IR. -/
theorem takesJump_phase {t : State} (h : t.takesJump) : t.ph = .execute ∧ t.current ≠ .nop 0 := by
  refine ⟨h.1, fun hn => ?_⟩
  rcases h.2 with ⟨-, x, hx⟩ | ⟨-, hg, -⟩
  · simp [hn] at hx
  · simp [hn, execGroup] at hg

/-- One word of zeros is a NOP, and no jump is taken in its run. -/
theorem witness_RunWithoutJumpsStops :
    (small 1 []).Inv ∧ (small 1 []).atFetch ∧
    ∀ k t, k < 6 * (small 1 []).cfg.n → run k (small 1 []) = .next t → ¬ t.takesJump := by
  refine ⟨small_inv (by decide) (by decide) (by decide), ⟨rfl, rfl⟩, fun k t hk hr ht => ?_⟩
  have hk' : k < 6 := hk
  have hs : got (fun t => decide (t.ph = .execute ∧ t.current ≠ .nop 0)) (run k (small 1 [])) = some false := by
    interval_cases k <;> decide
  rw [hr] at hs
  simp only [got, Option.some.injEq, decide_eq_false_iff_not] at hs
  exact hs (takesJump_phase ht)

end Sys2Proof.Tests
end

/-!
PROOFS. The value functions of 00_scope.md R12.
-/

namespace Sys2Proof.Proofs
open Sys2Proof.Machine

/-- The remainder `wordMod` takes is not negative for `n` > 0, so `toNat` in its definition loses nothing (R12, D4). -/
theorem wordMod_cast {n : Nat} (w : Word) (h : 0 < n) : (wordMod w n : Int) = w.toInt % (n : Int) := by
  have hn : (n : Int) ≠ 0 := by omega
  exact Int.toNat_of_nonneg (Int.emod_nonneg w.toInt hn)

/-- Settles O7: the bound is the one every address has, and the multiple of `n` is the Euclidean quotient. -/
theorem wordReductionIsEuclidean : Obligations.WordReductionIsEuclidean := by
  intro w n hn
  have hdiv : w.toInt = w.toInt / (n : Int) * (n : Int) + w.toInt % (n : Int) :=
    (Int.ediv_mul_add_emod w.toInt n).symm
  refine ⟨wordMod_lt w hn, w.toInt / (n : Int), ?_⟩
  rwa [wordMod_cast w hn]

end Sys2Proof.Proofs

/-!
PROOFS. What one call of `step()` can do, and which fields of the state each micro-step writes (10_state.md R21 to R32).
-/

namespace Sys2Proof.Machine

/-- The micro-steps of R100: what each leaves behind, by PH, UC and the addressing class of the decoded IR. -/
inductive StepCase (s : State) : State → Prop where
  | fetchAddress : s.ph = .fetch → s.uc = 0 → StepCase s (s.openMicroStep.setAr (s.pc % s.cfg.n)).stayInPhase
  | fetchWord : s.ph = .fetch → s.uc = 1 → s.ar < s.cfg.n →
      StepCase s ((s.openMicroStep.setIr (s.mem.read s.ar)).enter .indirect)
  | directAddress : s.ph = .indirect → s.uc = 0 → addrClass s.current = .direct →
      StepCase s ((s.openMicroStep.setAr (operandMod s.current.operand s.cfg.n)).enter .execute)
  | pointerAddress : s.ph = .indirect → s.uc = 0 → addrClass s.current = .indirect →
      StepCase s (s.openMicroStep.setAr (operandMod s.current.operand s.cfg.n)).stayInPhase
  | pointer : s.ph = .indirect → s.uc = 1 → addrClass s.current = .indirect → s.ar < s.cfg.n →
      StepCase s ((s.openMicroStep.setAr (wordMod (s.mem.read s.ar) s.cfg.n)).enter .execute)
  | noAddress : s.ph = .indirect → s.uc = 0 → addrClass s.current = .immediate ∨ addrClass s.current = .none →
      StepCase s (s.openMicroStep.enter .execute)
  | execute {t : State} : s.ph = .execute → ExecStep s.current s.openMicroStep t → StepCase s t
  | halted : s.ph = .halt → StepCase s (s.idleStep .ok)
  | faulted : s.ph = .error → StepCase s (s.idleStep .errorDivideByZero)

theorem step_execute {s : State} (h : s.ph = .execute) : step s = exec s.current s.openMicroStep := by
  simp [step, microStep, h]

theorem execStep_of_step {s t : State} (hp : s.ph = .execute) (h : step s = .next t) :
    ExecStep s.current s.openMicroStep t := exec_next (step_execute hp ▸ h)

/-- A call of `step()` that answers a next state performed one of the micro-steps. -/
theorem step_next {s t : State} (h : step s = .next t) : StepCase s t := by
  cases hp : s.ph with
  | fetch =>
    rw [step_fetch hp] at h
    rcases fetchStep_next.1 h with ⟨hu, rfl⟩ | ⟨hu, ha, rfl⟩
    · exact .fetchAddress hp hu
    · exact .fetchWord hp hu ha
  | indirect =>
    rw [step_indirect hp] at h
    rcases indirectStep_next.1 h with ⟨hc, hu, rfl⟩ | ⟨hc, hu, rfl⟩ | ⟨hc, hu, ha, rfl⟩ | ⟨hc, hu, rfl⟩
    · exact .directAddress hp hu hc
    · exact .pointerAddress hp hu hc
    · exact .pointer hp hu hc ha
    · exact .noAddress hp hu hc
  | execute => exact .execute hp (execStep_of_step hp h)
  | halt =>
    rw [step_halt hp] at h
    cases h
    exact .halted hp
  | error =>
    rw [step_error hp] at h
    cases h
    exact .faulted hp

/-- Outside EXECUTE a micro-step keeps everything but IR, AR, UC, PH and the model's own fields. -/
theorem StepCase.frame_of_not_execute {s t : State} (h : StepCase s t) (hp : s.ph ≠ .execute) :
    t.cfg = s.cfg ∧ t.acc = s.acc ∧ t.vr = s.vr ∧ t.pc = s.pc ∧ t.jf = s.jf ∧ t.flt = s.flt ∧ t.mem = s.mem := by
  cases h with
  | execute he _ => exact absurd he hp
  | _ => simp

/-- IR is loaded by the second FETCH micro-step alone (R104). -/
theorem StepCase.ir_of_ne {s t : State} (h : StepCase s t) (hp : s.ph ≠ .execute) (hc : t.ir ≠ s.ir) :
    s.ph = .fetch ∧ s.uc = 1 := by
  cases h with
  | fetchWord hf hu _ => exact ⟨hf, hu⟩
  | execute he _ => exact absurd he hp
  | _ => simp at hc

/-! What an EXECUTE micro-step writes: IR, AR and the parameters never, every other field by its own kinds alone. -/

section
variable {i : Instr} {s t : State}

theorem State.advancePC_out_mem (s : State) : s.advancePC.out.mem = s.out.mem := by
  rcases s.advancePC_cases with ⟨-, h⟩ | ⟨-, h⟩ <;> simp [h]

theorem State.advancePC_pc_lt {s : State} (h : s.pc < s.cfg.n) : s.advancePC.pc < s.cfg.n := by
  rcases s.advancePC_cases with ⟨hlt, h'⟩ | ⟨-, h'⟩
  · simpa [h'] using hlt
  · simpa [h'] using h

theorem ExecStep.cfg_eq (h : ExecStep i s t) : t.cfg = s.cfg := by cases h <;> simp

theorem ExecStep.ir_eq (h : ExecStep i s t) : t.ir = s.ir := by cases h <;> simp

theorem ExecStep.ar_eq (h : ExecStep i s t) : t.ar = s.ar := by cases h <;> simp

theorem ExecStep.acc_writers (h : ExecStep i s t) (hc : t.acc ≠ s.acc) :
    (s.uc = 0 ∧ ∃ x, i ∈ [Instr.load x, Instr.loadi x, Instr.loadm x, Instr.not x]) ∨
    (s.uc = 1 ∧ (execGroup i = .alu ∨ execGroup i = .divide)) := by
  cases h with
  | move x v hi hu => exact .inl ⟨hu, x, by simpa using hi⟩
  | combine v hg hu => exact .inr ⟨hu, hg⟩
  | _ => simp at hc

theorem ExecStep.vr_writers (h : ExecStep i s t) (hc : t.vr ≠ s.vr) :
    s.uc = 0 ∧ (execGroup i = .alu ∨ execGroup i = .divide) := by
  cases h with
  | operand v hg hu => exact ⟨hu, hg⟩
  | _ => simp at hc

theorem ExecStep.jf_writers (h : ExecStep i s t) (hc : t.jf ≠ s.jf) : execGroup i = .condJump := by
  cases h with
  | test b hg _ => exact hg
  | taken a hg _ _ _ => exact hg
  | _ => simp at hc

theorem ExecStep.flt_writers (h : ExecStep i s t) (hc : t.flt ≠ s.flt) :
    t.flt = .divideByZero ∧ t.ph = .error ∧ s.uc = 1 ∧ s.vr = 0#32 ∧ execGroup i = .divide := by
  cases h with
  | divideByZero hg hu hv => exact ⟨rfl, rfl, hu, hv, hg⟩
  | _ => simp at hc

theorem ExecStep.mem_cases (h : ExecStep i s t) :
    t.mem = s.mem ∨
    ((∃ x, i = .store x ∨ i = .storei x) ∧ s.ar < s.cfg.n ∧ t.mem = s.mem.write s.ar s.acc ∧
      t.out.mem = some t.mem) := by
  cases h with
  | store x hi _ ha => exact .inr ⟨⟨x, hi⟩, ha, by simp, by simp [State.advancePC_out_mem]⟩
  | _ => exact .inl (by simp)

theorem ExecStep.pc_lt (h : ExecStep i s t) (hs : s.pc < s.cfg.n) : t.pc < s.cfg.n := by
  have hn : 0 < s.cfg.n := by omega
  cases h with
  | advance | untaken => exact State.advancePC_pc_lt hs
  | pause => exact State.advancePC_pc_lt (s := s.notifyBreak) hs
  | move x v | combine v => exact State.advancePC_pc_lt (s := s.setAcc v) hs
  | store => exact State.advancePC_pc_lt (s := s.setWord s.ar s.acc) hs
  | jump x a _ _ ha => exact ha hn
  | taken a _ _ _ ha => exact ha hn
  | stop | operand | divideByZero | test => exact hs

end

/-! The same for a whole step. -/

section
variable {s t : State}

theorem step_cfg_eq (h : step s = .next t) : t.cfg = s.cfg := by
  cases step_next h with
  | execute _ he => exact he.cfg_eq
  | _ => simp

/-- A step keeps memory, or it is EXECUTE of STORE or STOREI, which writes ACC at AR and announces it (R52). -/
theorem step_mem_cases (h : step s = .next t) :
    t.mem = s.mem ∨
    (s.ph = .execute ∧ (∃ x, s.current = .store x ∨ s.current = .storei x) ∧ s.ar < s.cfg.n ∧
      t.mem = s.mem.write s.ar s.acc ∧ t.out.mem = some t.mem) := by
  cases step_next h with
  | execute hp he => exact he.mem_cases.imp_right fun hw => ⟨hp, hw⟩
  | _ => exact .inl (by simp)

theorem step_pc_lt (h : step s = .next t) (hs : s.pc < s.cfg.n) : t.pc < s.cfg.n := by
  cases step_next h with
  | execute _ he => exact he.pc_lt hs
  | _ => exact hs

/-- Every address written to AR is reduced first (R25). -/
theorem step_ar_lt (h : step s = .next t) (hs : s.ar < s.cfg.n) : t.ar < s.cfg.n := by
  have hn : 0 < s.cfg.n := by omega
  cases step_next h with
  | fetchAddress => exact Nat.mod_lt _ hn
  | directAddress | pointerAddress => exact operandMod_lt _ hn
  | pointer => exact wordMod_lt _ hn
  | execute _ he => exact he.ar_eq ▸ hs
  | fetchWord | noAddress | halted | faulted => exact hs

end

end Sys2Proof.Machine

/-!
PROOFS. 10_state.md: the invariant holds at reset and every step keeps it; its part about PH, UC, JF and FLT is
`State.ControlInv`.
-/

namespace Sys2Proof.Machine

/-- The part of `State.Inv` about the control state: the last four of its fields. -/
structure State.ControlInv (s : State) : Prop where
  pair : s.ReachablePair
  jf : s.jf = true → s.ph = .execute ∧ s.uc = 1 ∧ execGroup s.current = .condJump
  flt : s.flt = .divideByZero ↔ s.ph = .error
  cause : s.ph = .error → s.vr = 0#32 ∧ execGroup s.current = .divide

theorem State.Inv.control {s : State} (h : s.Inv) : s.ControlInv := ⟨h.pair, h.jf, h.flt, h.cause⟩

theorem State.ReachablePair.of_fetch {s : State} (hp : s.ph = .fetch) : s.ReachablePair := by
  simp [State.ReachablePair, hp]

theorem State.ReachablePair.of_indirect {s : State} (hp : s.ph = .indirect)
    (h : s.uc = 1 → addrClass s.current = .indirect) : s.ReachablePair := by
  simpa [State.ReachablePair, hp] using h

theorem State.ReachablePair.of_execute {s : State} (hp : s.ph = .execute)
    (h : s.uc = 1 → execGroup s.current ≠ .single) : s.ReachablePair := by
  simpa [State.ReachablePair, hp] using h

namespace State.ControlInv
variable {s t : State}

theorem openMicroStep (h : s.ControlInv) : s.openMicroStep.ControlInv := ⟨h.pair, h.jf, h.flt, h.cause⟩

theorem idleStep (h : s.ControlInv) (r : StepResult) : (s.idleStep r).ControlInv := ⟨h.pair, h.jf, h.flt, h.cause⟩

theorem jf_eq_false (h : s.ControlInv) (hn : s.ph = .execute → s.uc = 1 → execGroup s.current ≠ .condJump) :
    s.jf = false := by
  by_contra hj
  obtain ⟨hp, hu, hg⟩ := h.jf (by simpa using hj)
  exact hn hp hu hg

theorem flt_eq_noFault (h : s.ControlInv) (hp : s.ph ≠ .error) : s.flt = .noFault := by
  cases hf : s.flt with
  | noFault => rfl
  | divideByZero => exact absurd (h.flt.1 hf) hp

/-- A state outside ERROR with JF clear and no fault has the control invariant if its (PH, UC) pair is reachable. -/
theorem of_quiet (hp : s.ReachablePair) (he : s.ph ≠ .error) (hj : s.jf = false) (hf : s.flt = .noFault) :
    s.ControlInv where
  pair := hp
  jf := by simp [hj]
  flt := by simp [hf, he]
  cause := fun h => absurd h he

/-- The end of an instruction (R111) is quiet when JF is clear and there is no fault. -/
theorem of_advancePC (hj : s.jf = false) (hf : s.flt = .noFault) : s.advancePC.ControlInv := by
  rcases s.advancePC_cases with ⟨-, h⟩ | ⟨-, h⟩ <;> rw [h]
  · exact of_quiet trivial nofun hj hf
  · exact of_quiet rfl nofun hj hf

/-- EXECUTE: the first micro-step of two stays with UC = 1, the only place where JF may be set; the last one leaves
for FETCH or HALT with JF clear, or for ERROR with its cause (R109, R203, R302). -/
theorem of_execStep (h : s.ControlInv) (hp : s.ph = .execute) (he : ExecStep s.current s t) : t.ControlInv := by
  have hf : s.flt = .noFault := h.flt_eq_noFault (by simp [hp])
  have hj₀ : s.uc = 0 → s.jf = false := fun hu => h.jf_eq_false (by simp [hu])
  have hj₁ : execGroup s.current = .alu ∨ execGroup s.current = .divide → s.jf = false := fun hg =>
    h.jf_eq_false fun _ _ hc => by simp [hc] at hg
  cases he with
  | advance _ _ hu => exact of_advancePC (hj₀ hu) hf
  | stop _ _ hu => exact of_quiet rfl nofun (hj₀ hu) hf
  | pause _ _ hu => exact of_advancePC (s := s.notifyBreak) (hj₀ hu) hf
  | move _ v _ hu => exact of_advancePC (s := s.setAcc v) (hj₀ hu) hf
  | store _ _ hu => exact of_advancePC (s := s.setWord s.ar s.acc) (hj₀ hu) hf
  | jump _ a _ hu => exact of_quiet trivial nofun (hj₀ hu) hf
  | operand v hg hu =>
    have hsingle : execGroup s.current ≠ .single := by rcases hg with hg | hg <;> simp [hg]
    exact of_quiet (.of_execute hp fun _ => hsingle) (by simp [hp]) (hj₀ hu) hf
  | combine v hg => exact of_advancePC (s := s.setAcc v) (hj₁ hg) hf
  | divideByZero hg _ hv =>
    exact ⟨rfl, by simp [hj₁ (.inr hg)], by simp, fun _ => ⟨hv, hg⟩⟩
  | test b hg =>
    have hsingle : execGroup s.current ≠ .single := by simp [hg]
    exact ⟨.of_execute hp fun _ => hsingle, fun _ => ⟨hp, rfl, hg⟩, h.flt, h.cause⟩
  | taken => exact of_quiet trivial nofun rfl hf
  | untaken _ _ hj => exact of_advancePC hj hf

/-- FETCH and INDIRECT write neither JF nor FLT, and each of their micro-steps goes on to a pair of R123. -/
theorem of_step (h : s.ControlInv) (hst : StepCase s t) : t.ControlInv := by
  have quiet (hx : s.ph ≠ .execute) (he : s.ph ≠ .error) (hpair : t.ReachablePair) (ht : t.ph ≠ .error) :
      t.ControlInv := by
    obtain ⟨-, -, -, -, hj, hf, -⟩ := hst.frame_of_not_execute hx
    exact of_quiet hpair ht (hj.trans (h.jf_eq_false fun hp => absurd hp hx)) (hf.trans (h.flt_eq_noFault he))
  cases hst with
  | fetchAddress hp => exact quiet (by simp [hp]) (by simp [hp]) (.of_fetch hp) (by simp [hp])
  | fetchWord hp => exact quiet (by simp [hp]) (by simp [hp]) nofun nofun
  | pointerAddress hp _ hc =>
    exact quiet (by simp [hp]) (by simp [hp]) (.of_indirect hp fun _ => hc) (by simp [hp])
  | directAddress hp | pointer hp | noAddress hp => exact quiet (by simp [hp]) (by simp [hp]) nofun nofun
  | execute hp he => exact of_execStep h.openMicroStep hp he
  | halted | faulted => exact h.idleStep _

end State.ControlInv

/-- The reset values of R34 satisfy the invariant for every configuration a core can be built with. -/
theorem State.resetOf_inv {c : Config} (hc : c.wf) (draws : Nat) : (State.resetOf c draws).Inv where
  cfg := hc
  memWf := ⟨.nil, nofun⟩
  memBounded := nofun
  pc := hc.1
  ar := hc.1
  pair := trivial
  jf := nofun
  flt := ⟨nofun, nofun⟩
  cause := nofun

theorem Config.default_wf : Config.default.wf :=
  ⟨by decide, le_refl _, (by decide : OpcodeMap.default.wf)⟩

end Sys2Proof.Machine

namespace Sys2Proof.Proofs
open Sys2Proof.Machine

/-- Settles O44: the range and memory parts from what a step can write, the control part by the kinds of micro-step. -/
theorem stepKeepsTheInvariant : Obligations.StepKeepsTheInvariant := by
  intro s t hs h
  have hcfg : t.cfg = s.cfg := step_cfg_eq h
  have hmem : t.mem.wf ∧ t.mem.bounded s.cfg.n := by
    rcases step_mem_cases h with hm | ⟨-, -, ha, hm, -⟩ <;> rw [hm]
    · exact ⟨hs.memWf, hs.memBounded⟩
    · exact ⟨Memory.write_wf hs.memWf _ _, Memory.write_bounded hs.memBounded ha _⟩
  have hctl : t.ControlInv := hs.control.of_step (step_next h)
  exact ⟨hcfg ▸ hs.cfg, hmem.1, hcfg ▸ hmem.2, hcfg ▸ step_pc_lt h hs.pc, hcfg ▸ step_ar_lt h hs.ar,
    hctl.pair, hctl.jf, hctl.flt, hctl.cause⟩

/-- Settles O48: outside EXECUTE only FETCH writes one of the three, in EXECUTE each by its own kinds of micro-step. -/
theorem dataRegistersHaveOnlyTheirWriters : Obligations.DataRegistersHaveOnlyTheirWriters := by
  intro s t h
  by_cases hp : s.ph = .execute
  · have he := execStep_of_step hp h
    exact ⟨fun hc => ⟨hp, he.acc_writers hc⟩, fun hc => ⟨hp, he.vr_writers hc⟩, fun hc => absurd he.ir_eq hc⟩
  · obtain ⟨-, hacc, hvr, -⟩ := (step_next h).frame_of_not_execute hp
    exact ⟨absurd hacc, absurd hvr, (step_next h).ir_of_ne hp⟩

/-- Settles O50: outside EXECUTE both are kept; in EXECUTE JF has two writers and FLT one. -/
theorem flagAndFaultHaveOnlyTheirWriters : Obligations.FlagAndFaultHaveOnlyTheirWriters := by
  intro s t h
  by_cases hp : s.ph = .execute
  · have he := execStep_of_step hp h
    refine ⟨fun hc => ⟨hp, he.jf_writers hc⟩, fun hc => ?_, step_cfg_eq h⟩
    obtain ⟨hflt, hph, hcause⟩ := he.flt_writers hc
    exact ⟨hflt, hph, hp, hcause⟩
  · obtain ⟨hcfg, -, -, -, hjf, hflt, -⟩ := (step_next h).frame_of_not_execute hp
    exact ⟨absurd hjf, absurd hflt, hcfg⟩

/-- Settles O51: the one write a step can make, and what a memory reads after a write. -/
theorem onlyStoresChangeMemory : Obligations.OnlyStoresChangeMemory := by
  intro s t h hc
  obtain ⟨hp, hi, -, hm, hout⟩ := (step_mem_cases h).resolve_left hc
  refine ⟨hp, hi, fun a ha => ?_, fun hwf => ?_, hout⟩
  · rw [hm, Memory.read_write_other _ ha]
  · rw [hm, Memory.read_write_same hwf]

/-- Settles O11: `reset()` builds R34's state from the configuration and the count of drawn texts alone; the empty
memory reads as 0 everywhere. -/
theorem resetLeavesTheResetValues : Obligations.ResetLeavesTheResetValues :=
  ⟨fun _ => ⟨rfl, Memory.read_nil, rfl, rfl⟩, rfl, rfl⟩

/-- Settles O43: the default configuration is one a core can be built with; FETCH with UC = 0 asks nothing of AR. -/
theorem invariantHoldsAtReset : Obligations.InvariantHoldsAtReset :=
  ⟨State.resetOf_inv Config.default_wf 0, trivial⟩

end Sys2Proof.Proofs

/-!
PROOFS. 20_memory.md R50, R51: a memory in canonical form is determined by its reads, and a step from a state with the
invariant makes no access outside [0, N) and no refused micro-step.
-/

namespace Sys2Proof.Machine

theorem Memory.read_cons_same (a : Nat) (v : Word) (m : Memory) : Memory.read ((a, v) :: m) a = v := by
  simp [Memory.read_cons]

theorem Memory.read_cons_other {a b : Nat} (h : b ≠ a) (v : Word) (m : Memory) :
    Memory.read ((a, v) :: m) b = m.read b := by simp [Memory.read_cons, h]

theorem Memory.wf_cons {a : Nat} {v : Word} {m : Memory} :
    Memory.wf ((a, v) :: m) ↔ v ≠ Memory.unlisted ∧ (∀ c ∈ m, a < c.1) ∧ m.wf := by
  simp only [Memory.wf, List.pairwise_cons, List.forall_mem_cons]
  tauto

/-- The first cell of a memory in canonical form is the lowest address that does not read as unlisted. -/
theorem Memory.head_le_of_read_ne {a b : Nat} {v : Word} {m : Memory} (hm : Memory.wf ((b, v) :: m))
    (h : Memory.read ((b, v) :: m) a ≠ Memory.unlisted) : b ≤ a := by
  obtain ⟨-, hlow, -⟩ := Memory.wf_cons.1 hm
  by_contra hlt
  refine h (Memory.read_of_lt fun c hc => ?_)
  rcases List.mem_cons.1 hc with rfl | hc
  · exact Nat.lt_of_not_le hlt
  · exact (Nat.lt_of_not_le hlt).trans (hlow c hc)

/-- Cell by cell: each first address is the lowest one that is not unlisted, so the two agree; below the rest of a
memory its own reads are unlisted, so the rests read alike too. -/
theorem Memory.eq_of_read_eq {m m' : Memory} (hm : m.wf) (hm' : m'.wf) (h : ∀ a, m.read a = m'.read a) : m = m' := by
  induction m generalizing m' with
  | nil =>
    cases m' with
    | nil => rfl
    | cons d m' =>
      have hd := h d.1
      rw [Memory.read_cons_same, Memory.read_nil] at hd
      exact absurd hd.symm (Memory.wf_cons.1 hm').1
  | cons c m ih =>
    obtain ⟨a, v⟩ := c
    obtain ⟨hv, hlow, htail⟩ := Memory.wf_cons.1 hm
    cases m' with
    | nil => exact absurd (Memory.read_cons_same a v m ▸ h a) hv
    | cons d m' =>
      obtain ⟨b, w⟩ := d
      obtain ⟨hw, hlow', htail'⟩ := Memory.wf_cons.1 hm'
      have hba : b ≤ a := Memory.head_le_of_read_ne hm' (by rwa [← h a, Memory.read_cons_same])
      have hab : a ≤ b := Memory.head_le_of_read_ne hm (by rwa [h b, Memory.read_cons_same])
      obtain rfl : a = b := le_antisymm hab hba
      have hvw : v = w := by rw [← Memory.read_cons_same a v m, h a, Memory.read_cons_same]
      have hrest : ∀ k, Memory.read m k = Memory.read m' k := fun k => by
        by_cases hk : k = a
        · rw [hk, Memory.read_of_lt hlow, Memory.read_of_lt hlow']
        · simpa [Memory.read_cons_other hk] using h k
      rw [hvw, ih htail htail' hrest]

/-! When FETCH and INDIRECT answer a next state, as `exec_total` says it of EXECUTE. -/

/-- Both FETCH micro-steps have a block (R103, R104); the second reads at AR. -/
theorem fetchStep_total {s : State} (ha : s.ar < s.cfg.n) : ∃ t, fetchStep s = .next t := by
  have h01 : s.uc = 0 ∨ s.uc = 1 := by omega
  rcases h01 with h0 | h1
  · exact ⟨_, fetchStep_next.2 (.inl ⟨h0, rfl⟩)⟩
  · exact ⟨_, fetchStep_next.2 (.inr ⟨h1, ha, rfl⟩)⟩

/-- INDIRECT has a first micro-step for every class and a second one for the indirect forms (R105 to R108). -/
theorem indirectStep_total (i : Instr) {s : State} (ha : s.ar < s.cfg.n) (hu : s.uc = 1 → addrClass i = .indirect) :
    ∃ t, indirectStep i s = .next t := by
  have h01 : s.uc = 0 ∨ s.uc = 1 := by omega
  rcases h01 with h0 | h1
  · cases hc : addrClass i with
    | direct => exact ⟨_, indirectStep_next.2 (.inl ⟨hc, h0, rfl⟩)⟩
    | indirect => exact ⟨_, indirectStep_next.2 (.inr (.inl ⟨hc, h0, rfl⟩))⟩
    | immediate => exact ⟨_, indirectStep_next.2 (.inr (.inr (.inr ⟨.inl hc, h0, rfl⟩)))⟩
    | none => exact ⟨_, indirectStep_next.2 (.inr (.inr (.inr ⟨.inr hc, h0, rfl⟩)))⟩
  · exact ⟨_, indirectStep_next.2 (.inr (.inr (.inl ⟨hu h1, h1, ha, rfl⟩)))⟩

theorem State.ReachablePair.indirect_class {s : State} (h : s.ReachablePair) (hp : s.ph = .indirect) (hu : s.uc = 1) :
    addrClass s.current = .indirect := by
  simp only [State.ReachablePair, hp] at h
  exact h hu

theorem State.ReachablePair.execute_group {s : State} (h : s.ReachablePair) (hp : s.ph = .execute) (hu : s.uc = 1) :
    execGroup s.current ≠ .single := by
  simp only [State.ReachablePair, hp] at h
  exact h hu

end Sys2Proof.Machine

/-!
PROOFS. 20_memory.md R63, R64: the FETCH micro-steps, the INDIRECT micro-step of a direct form and the EXECUTE of STORE,
each as what it does to the core's own part of the state.
-/

namespace Sys2Proof.Machine
variable {s : State}

theorem State.arch_advancePC (s : State) : s.advancePC.arch = s.arch.advanced := by
  unfold State.advancePC Arch.advanced
  exact apply_ite State.arch _ _ _

theorem Arch.advanced_of_lt {a : Arch} (h : a.pc + 1 < a.cfg.n) :
    a.advanced = { a with pc := a.pc + 1, ph := .fetch, uc := 0 } := if_pos h

/-- One more call of `step()` at the end. -/
theorem run_succ_of_run {k : Nat} {s t u : State} (h : run k s = .next t) (ht : step t = .next u) :
    run (k + 1) s = .next u := by
  rw [run_add h 1, run_succ_of_step ht, run_zero]

/-- FETCH as a whole (R103, R104): the word at PC is in IR, and AR holds PC. -/
theorem run_fetch (hs : s.atFetch) (hpc : s.pc < s.cfg.n) :
    ∃ t, run 2 s = .next t ∧
      t.arch = { s.arch with ir := s.mem.read s.pc, ar := s.pc, ph := .indirect, uc := 0 } := by
  obtain ⟨hp, hu⟩ := hs
  have hmod : s.pc % s.cfg.n = s.pc := Nat.mod_eq_of_lt hpc
  have haddress : step s = .next (s.openMicroStep.setAr s.pc).stayInPhase := by
    rw [step_fetch hp]
    exact fetchStep_next.2 (.inl ⟨hu, by simp [hmod]⟩)
  have hword : step (s.openMicroStep.setAr s.pc).stayInPhase = .next _ :=
    (step_fetch (by simp [hp])).trans (fetchStep_next.2 (.inr ⟨rfl, hpc, rfl⟩))
  exact ⟨_, by rw [run_succ_of_step haddress, run_succ_of_step hword, run_zero], rfl⟩

/-- FETCH and INDIRECT of a direct form (R103 to R105): EXECUTE begins with AR at the operand's address. -/
theorem run_fetch_direct {i : Instr} (hs : s.fetches i) (hc : addrClass i = .direct) :
    ∃ t, run 3 s = .next t ∧ t.arch = s.resolvedAt (s.directAddress i.operand) := by
  obtain ⟨hfetch, hpc, hi⟩ := hs
  obtain ⟨t, hrun, ht⟩ := run_fetch hfetch hpc
  have hcur : t.current = i := by
    have hcfg : t.cfg = s.cfg := congrArg Arch.cfg ht
    have hir : t.ir = s.mem.read s.pc := congrArg Arch.ir ht
    rw [State.current, hcfg, hir, hi]
  have hstep : step t = .next ((t.openMicroStep.setAr (operandMod i.operand t.cfg.n)).enter .execute) := by
    rw [step_indirect (congrArg Arch.ph ht), hcur]
    exact indirectStep_next.2 (.inl ⟨hc, congrArg Arch.uc ht, rfl⟩)
  refine ⟨_, run_succ_of_run hrun hstep, ?_⟩
  calc ((t.openMicroStep.setAr (operandMod i.operand t.cfg.n)).enter .execute).arch
      = { t.arch with ar := operandMod i.operand t.arch.cfg.n, ph := .execute, uc := 0 } := rfl
    _ = s.resolvedAt (s.directAddress i.operand) := by rw [ht]; rfl

/-- EXECUTE of STORE (R170): ACC goes to the word at AR, then AdvancePC(). -/
theorem step_store {x : Operand24} (hp : s.ph = .execute) (hu : s.uc = 0) (ha : s.ar < s.cfg.n)
    (hi : s.current = .store x) :
    step s = .next (s.openMicroStep.setWord s.ar s.acc).advancePC := by
  rw [step_execute hp, hi]
  exact singleMicroStep_next.2 ⟨hu, storeToMemory_next.2 ⟨ha, rfl⟩⟩

/-- STORE as a whole (R170): the four micro-steps write ACC at the operand's address and advance. -/
theorem run_store {x : Operand24} (hs : s.fetches (.store x)) :
    ∃ t, run 4 s = .next t ∧
      t.arch = { s.resolvedAt (s.directAddress x) with mem := s.mem.write (s.directAddress x) s.acc }.advanced := by
  obtain ⟨t, hrun, ht⟩ := run_fetch_direct hs rfl
  obtain ⟨-, hpc, hi⟩ := hs
  have hcfg : t.cfg = s.cfg := congrArg Arch.cfg ht
  have har : t.ar = s.directAddress x := congrArg Arch.ar ht
  have hir : t.ir = s.mem.read s.pc := congrArg Arch.ir ht
  have hlt : t.ar < t.cfg.n := by
    rw [har, hcfg]
    exact Nat.mod_lt _ (Nat.zero_lt_of_lt hpc)
  have hcur : t.current = .store x := by rw [State.current, hcfg, hir, hi]
  have hstep := step_store (congrArg Arch.ph ht) (congrArg Arch.uc ht) hlt hcur
  refine ⟨_, run_succ_of_run hrun hstep, ?_⟩
  calc (t.openMicroStep.setWord t.ar t.acc).advancePC.arch
      = { t.arch with mem := t.arch.mem.write t.arch.ar t.arch.acc }.advanced := State.arch_advancePC _
    _ = _ := by rw [ht]; rfl

end Sys2Proof.Machine

namespace Sys2Proof.Proofs
open Sys2Proof.Machine

/-- Settles O10, by induction on the cells: a canonical memory lists exactly the addresses that do not read as 0. -/
theorem memoryIsDeterminedByItsReads : Obligations.MemoryIsDeterminedByItsReads :=
  fun _ _ => Memory.eq_of_read_eq

/-- Settles O45: AR is an existing address, and no (PH, UC) pair outside R123 occurs; a micro-step asks no more. -/
theorem stepAlwaysAnswersANextState : Obligations.StepAlwaysAnswersANextState := by
  intro s hs
  cases hp : s.ph with
  | fetch => exact step_fetch hp ▸ fetchStep_total hs.ar
  | indirect => exact step_indirect hp ▸ indirectStep_total s.current hs.ar (hs.pair.indirect_class hp)
  | execute => exact step_execute hp ▸ exec_total s.current hs.ar (hs.pair.execute_group hp)
  | halt => exact ⟨_, step_halt hp⟩
  | error => exact ⟨_, step_error hp⟩

/-- Settles O42: the store writes at PC + 1 and leaves its own word in IR; then FETCH reads at PC + 1. -/
theorem nextFetchSeesTheStoredWord : Obligations.NextFetchSeesTheStoredWord := by
  intro x s hwf hs hx
  obtain ⟨t, hrun, ht⟩ := run_store hs
  obtain ⟨-, hpc_lt, -⟩ := hs
  have hlt : s.pc + 1 < s.cfg.n := hx ▸ Nat.mod_lt _ (Nat.zero_lt_of_lt hpc_lt)
  rw [hx, Arch.advanced_of_lt hlt] at ht
  have hpc : t.pc = s.pc + 1 := congrArg Arch.pc ht
  have hmem : t.mem = s.mem.write (s.pc + 1) s.acc := congrArg Arch.mem ht
  have hcfg : t.cfg = s.cfg := congrArg Arch.cfg ht
  obtain ⟨u, hrun', hu⟩ := run_fetch ⟨congrArg Arch.ph ht, congrArg Arch.uc ht⟩ (by rwa [hpc, hcfg])
  have hir : u.ir = t.mem.read t.pc := congrArg Arch.ir hu
  refine ⟨t, hrun, congrArg Arch.ir ht, u, (run_add hrun 2).trans hrun', ?_, congrArg Arch.ph hu⟩
  rw [hir, hpc, hmem, Memory.read_write_same hwf]

end Sys2Proof.Proofs

/-!
PROOFS. 30_encoding.md: the mnemonic an opcode value stands for under a map (R73 to R75), and the two directions
between words and instructions.
-/

namespace Sys2Proof

/-- The mnemonic the decoder reads from an opcode value: NOP for a value outside the map (R73, R75). -/
def OpcodeMap.mnemonic (m : OpcodeMap) (v : OpcodeValue) : Operand24 → Instr :=
  ((m.idxOf? v).bind (catalogue[·]?)).getD .nop

/-- Decoding is the mnemonic of the opcode field applied to the operand field (R73). -/
theorem decodeWith_eq_mnemonic (m : OpcodeMap) (w : Word) :
    decodeWith m w = OpcodeMap.mnemonic m (opcField w) (operandField w) := by
  unfold decodeWith OpcodeMap.mnemonic
  cases (m.idxOf? (opcField w)).bind (catalogue[·]?) <;> rfl

/-- In a map without repetition, the value at place `k` stands for the `k`-th mnemonic. -/
theorem OpcodeMap.mnemonic_of_getElem? {m : OpcodeMap} {k : Nat} {v : OpcodeValue} {c : Operand24 → Instr}
    (hm : m.Nodup) (hv : m[k]? = some v) (hc : catalogue[k]? = some c) : OpcodeMap.mnemonic m v = c := by
  obtain ⟨hk, rfl⟩ := List.getElem?_eq_some_iff.1 hv
  have hfirst : m.idxOf? m[k] = some k :=
    List.idxOf?_eq_some_iff.2 ⟨hk, rfl, fun j hj he => hj.ne (hm.getElem_inj_iff.1 he)⟩
  simp [OpcodeMap.mnemonic, hfirst, hc]

theorem OpcodeMap.mnemonic_of_notMem {m : OpcodeMap} {v : OpcodeValue} (hv : v ∉ m) :
    OpcodeMap.mnemonic m v = .nop := by
  simp [OpcodeMap.mnemonic, List.idxOf?_eq_none_iff.2 hv]

theorem OpcodeMap.mnemonic_mem_catalogue (m : OpcodeMap) (v : OpcodeValue) :
    OpcodeMap.mnemonic m v ∈ catalogue := by
  unfold OpcodeMap.mnemonic
  cases h : (m.idxOf? v).bind (catalogue[·]?) with
  | none => exact List.mem_of_getElem? (i := 0) rfl
  | some c =>
    obtain ⟨k, -, hk⟩ := Option.bind_eq_some_iff.1 h
    exact List.mem_of_getElem? hk

open Laws.CatalogueEntry in
/-- `CatalogueEntry` for every constructor. -/
theorem catalogueEntry (i : Instr) : Laws.CatalogueEntry.Statement i := by
  cases i
  exacts [nop _, halt _, brk _, load _, loadi _, loadm _, store _, storei _, add _, addi _, addm _, sub _, subi _,
    subm _, mult _, multi _, multm _, div _, divi _, divm _, mod _, modi _, modm _, and _, andi _, andm _, or _, ori _,
    orm _, not _, jmp _, jmpi _, jmpm _, jmpeq _, jmpeqi _, jmpeqm _, jmpne _, jmpnei _, jmpnem _, jmpgt _, jmpgti _,
    jmpgtm _, jmplt _, jmplti _, jmpltm _, jmpge _, jmpgei _, jmpgem _, jmple _, jmplei _, jmplem _]

/-- Every instruction is the mnemonic at its own place, applied to its own operand. -/
theorem exists_catalogue_getElem? (i : Instr) : ∃ c, catalogue[i.index]? = some c ∧ c i.operand = i :=
  Option.map_eq_some_iff.1 (catalogueEntry i)

/-- The mnemonic at place `k` makes instructions of index `k` that carry the operand they are given. -/
theorem index_operand_of_catalogue {k : Nat} {c : Operand24 → Instr} (hc : catalogue[k]? = some c) (x : Operand24) :
    (c x).index = k ∧ (c x).operand = x := by
  have hindex : catalogue.map (fun c => (c x).index) = List.range OpcodeMap.size := rfl
  have hoperand : catalogue.map (fun c => (c x).operand) = List.replicate OpcodeMap.size x := rfl
  have hi : (List.range OpcodeMap.size)[k]? = some (c x).index := by rw [← hindex, List.getElem?_map, hc]; rfl
  have ho : (c x).operand ∈ List.replicate OpcodeMap.size x :=
    hoperand ▸ List.mem_map_of_mem (List.mem_of_getElem? hc)
  obtain ⟨hlt, hk⟩ := List.getElem?_eq_some_iff.1 hi
  exact ⟨hk.symm.trans (List.getElem_range hlt), List.eq_of_mem_replicate ho⟩

/-- A map of the right size holds an instruction's opcode value at the instruction's place (R8). -/
theorem getElem?_index_eq_opcodeValue {m : OpcodeMap} (hm : m.length = OpcodeMap.size) (i : Instr) :
    m[i.index]? = some (opcodeValue m i) := by
  have hi : i.index < m.length := hm ▸ i.index_lt
  simp [opcodeValue, hi]

theorem decodeWith_encodeWith {m : OpcodeMap} (hm : m.wf) (i : Instr) : decodeWith m (encodeWith m i) = i := by
  obtain ⟨hsize, hnodup⟩ := hm
  obtain ⟨c, hc, hi⟩ := exists_catalogue_getElem? i
  rw [decodeWith_eq_mnemonic, encodeWith, opcField_append, operandField_append,
    OpcodeMap.mnemonic_of_getElem? hnodup (getElem?_index_eq_opcodeValue hsize i) hc, hi]

theorem encodeWith_decodeWith {m : OpcodeMap} (hm : m.wf) {w : Word} (hw : opcField w ∈ m) :
    encodeWith m (decodeWith m w) = w := by
  obtain ⟨hsize, hnodup⟩ := hm
  obtain ⟨k, hk⟩ := List.mem_iff_getElem?.1 hw
  obtain ⟨hkm, -⟩ := List.getElem?_eq_some_iff.1 hk
  have hlt : k < catalogue.length := hkm.trans_eq hsize
  have hc : catalogue[k]? = some catalogue[k] := List.getElem?_eq_getElem hlt
  obtain ⟨hindex, hoperand⟩ := index_operand_of_catalogue hc (operandField w)
  have hvalue : opcodeValue m (catalogue[k] (operandField w)) = opcField w := by
    simp [opcodeValue, hindex, hk]
  rw [decodeWith_eq_mnemonic, OpcodeMap.mnemonic_of_getElem? hnodup hk hc, encodeWith, hvalue, hoperand,
    fields_append]

/-- Masking a word to its `n` low bits. -/
theorem and_lowMask (w : Word) {n : Nat} (hn : n ≤ 32) :
    w &&& BitVec.ofNat 32 (2 ^ n - 1) = (w.setWidth n).setWidth 32 := by
  apply BitVec.eq_of_toNat_eq
  have hpow : 2 ^ n ≤ 2 ^ 32 := Nat.pow_le_pow_right (by decide) hn
  have hmask : (2 ^ n - 1) % 2 ^ 32 = 2 ^ n - 1 := Nat.mod_eq_of_lt (by have := Nat.two_pow_pos n; omega)
  have hmod : w.toNat % 2 ^ n < 2 ^ 32 := (Nat.mod_lt _ (Nat.two_pow_pos n)).trans_le hpow
  calc w.toNat &&& (2 ^ n - 1) % 2 ^ 32 = w.toNat % 2 ^ n := by rw [hmask, Nat.and_two_pow_sub_one_eq_mod]
    _ = ((w.setWidth n).setWidth 32).toNat := by
      rw [BitVec.toNat_setWidth, BitVec.toNat_setWidth, Nat.mod_eq_of_lt hmod]

/-- The rotation by 8 brings bits 31:24 down to bits 7:0 (R71). -/
theorem opcField_eq_rotateLeft (w : Word) : opcField w = (w.rotateLeft 8).setWidth 8 := by
  apply BitVec.eq_of_getLsbD_eq
  intro i hi
  simp [opcField, BitVec.getLsbD_rotateLeft, hi]

theorem operandField_eq_setWidth (w : Word) : operandField w = w.setWidth 24 :=
  (BitVec.setWidth_eq_extractLsb' (by decide)).symm

/-- The encoding in R81's words: the opcode value shifted above the operand. -/
theorem encodeWith_eq_shift_or (m : OpcodeMap) (i : Instr) :
    encodeWith m i = ((opcodeValue m i).setWidth 32 <<< 24) ||| (i.operand.setWidth 32 &&& 0xFFFFFF#32) := by
  have hmask : i.operand.setWidth 32 &&& 0xFFFFFF#32 = i.operand.setWidth 32 :=
    (and_lowMask _ (n := 24) (by decide)).trans (by simp)
  calc encodeWith m i = (opcodeValue m i ++ i.operand).setWidth 32 := (BitVec.setWidth_eq _).symm
    _ = _ := by rw [BitVec.setWidth_append_eq_shiftLeft_setWidth_or, hmask]

/-! The default map (R74, D1). -/

theorem OpcodeMap.default_nodup : OpcodeMap.default.Nodup := Machine.Config.default_wf.2.2.2

theorem OpcodeMap.getElem?_default {k : Nat} (hk : k < OpcodeMap.size) :
    OpcodeMap.default[k]? = some (BitVec.ofNat 8 k) := by
  simp [OpcodeMap.default, hk]

/-- The default map knows only values below 51. -/
theorem OpcodeMap.toNat_lt_of_mem_default {v : OpcodeValue} (hv : v ∈ OpcodeMap.default) :
    v.toNat < OpcodeMap.size := by
  obtain ⟨k, hk, rfl⟩ := List.mem_map.1 hv
  rw [BitVec.toNat_ofNat]
  exact (Nat.mod_le k _).trans_lt (List.mem_range.1 hk)

end Sys2Proof

namespace Sys2Proof.Machine
variable {s t : State}

/-- The mnemonics whose operand no rule reads (R76). -/
def operandIgnoring : List (Operand24 → Instr) := [.nop, .halt, .brk, .not]

theorem mem_operandIgnoring {c : Operand24 → Instr} :
    c ∈ operandIgnoring ↔ c = .nop ∨ c = .halt ∨ c = .brk ∨ c = .not := by
  simp [operandIgnoring]

/-- They are the mnemonics of addressing class None (R78). -/
theorem mem_operandIgnoring_of_addrClass {c : Operand24 → Instr} {x : Operand24} (hc : c ∈ catalogue)
    (h : addrClass (c x) = .none) : c ∈ operandIgnoring := by
  revert c
  simp [catalogue, addrClass, mem_operandIgnoring]

theorem addrClass_of_mem_operandIgnoring {c : Operand24 → Instr} (hc : c ∈ operandIgnoring) (x : Operand24) :
    addrClass (c x) = .none := by
  rcases mem_operandIgnoring.1 hc with rfl | rfl | rfl | rfl <;> rfl

/-- The state with another word in IR, and no notification of it. -/
def State.withIr (w : Word) (s : State) : State := { s with ir := w }

/-- AdvancePC() neither reads nor writes IR (R111). -/
theorem State.advancePC_withIr (w : Word) (s : State) : (s.withIr w).advancePC = s.advancePC.withIr w := by
  rcases s.advancePC_cases with ⟨hlt, h⟩ | ⟨hge, h⟩ <;> rw [h]
  · exact if_pos hlt
  · exact if_neg hge.not_gt

/-- If a one-micro-step body commutes with a change of IR, so does the micro-step. -/
theorem singleMicroStep_withIr {a b : State} {w : Word} (hb : b = a.withIr w)
    (h : singleMicroStep s (.next a) = .next t) :
    singleMicroStep (s.withIr w) (.next b) = .next (t.withIr w) := by
  obtain ⟨hu, ha⟩ := singleMicroStep_next.1 h
  cases ha
  exact singleMicroStep_next.2 ⟨hu, congrArg _ hb⟩

/-- EXECUTE of NOP, HALT, BREAK or NOT reads neither its operand nor IR (R116, R118, R119, R196). -/
theorem exec_withIr {c : Operand24 → Instr} {x : Operand24} (hc : c ∈ operandIgnoring)
    (h : exec (c x) s = .next t) (y : Operand24) (w : Word) :
    exec (c y) (s.withIr w) = .next (t.withIr w) := by
  rcases mem_operandIgnoring.1 hc with rfl | rfl | rfl | rfl
  · exact singleMicroStep_withIr (State.advancePC_withIr w s) h
  · exact singleMicroStep_withIr rfl h
  · exact singleMicroStep_withIr (State.advancePC_withIr w s.notifyBreak) h
  · exact singleMicroStep_withIr (State.advancePC_withIr w (s.setAcc (aluNot s.acc))) h

/-- INDIRECT of class None reads neither the operand nor IR (R108). -/
theorem indirectStep_withIr {i j : Instr} (hi : addrClass i = .none) (hj : addrClass j = .none)
    (h : indirectStep i s = .next t) (w : Word) : indirectStep j (s.withIr w) = .next (t.withIr w) := by
  simp only [indirectStep, hi, hj] at h ⊢
  exact singleMicroStep_withIr rfl h

end Sys2Proof.Machine

namespace Sys2Proof.Proofs
open Sys2Proof.Machine

/-- Settles O1: an injective map finds the opcode value at the instruction's own place in R74's list. -/
theorem decodeOfEncodeIsTheInstruction : Obligations.DecodeOfEncodeIsTheInstruction :=
  fun m hm i => ⟨decodeWith_encodeWith hm i, encodeWith_eq_shift_or m i⟩

/-- Settles O2: the mnemonic read at place `k` encodes with the value at place `k`, and a word is its two fields. -/
theorem encodeOfDecodeIsTheWord : Obligations.EncodeOfDecodeIsTheWord :=
  fun _ hm _ hw => encodeWith_decodeWith hm hw

/-- Settles O5: the statement's list is the decoder's catalogue, and the default map holds `k` at place `k`. -/
theorem defaultTableDecodesEveryRow : Obligations.DefaultTableDecodesEveryRow := by
  intro x k c hrow
  have hc : catalogue[k]? = some c := hrow
  have hk : k < OpcodeMap.size := (List.getElem?_eq_some_iff.1 hc).1
  rw [decode, decodeWith_eq_mnemonic, opcField_append, operandField_append,
    OpcodeMap.mnemonic_of_getElem? OpcodeMap.default_nodup (OpcodeMap.getElem?_default hk) hc]

/-- Settles O55: equal opcode fields decode to one mnemonic, and those of class None read neither operand nor IR. -/
theorem ignoredOperandBitsChangeNothing : Obligations.IgnoredOperandBitsChangeNothing := by
  intro s t w hp hclass hop hstep
  change step (s.withIr w) = .next (t.withIr w)
  obtain ⟨c, hc, hs, hw⟩ : ∃ c ∈ operandIgnoring,
      s.current = c (operandField s.ir) ∧ (s.withIr w).current = c (operandField w) := by
    have hs := decodeWith_eq_mnemonic s.cfg.opcodeMap s.ir
    have hw := decodeWith_eq_mnemonic s.cfg.opcodeMap w
    rw [State.current, hs] at hclass
    exact ⟨_, mem_operandIgnoring_of_addrClass (OpcodeMap.mnemonic_mem_catalogue _ _) hclass, hs, hop ▸ hw⟩
  rcases hp with hp | hp
  · rw [step_indirect hp] at hstep
    rw [step_indirect (s := s.withIr w) hp, hw]
    exact indirectStep_withIr hclass (addrClass_of_mem_operandIgnoring hc _) hstep w
  · rw [step_execute hp, hs] at hstep
    rw [step_execute (s := s.withIr w) hp, hw]
    exact exec_withIr hc hstep _ w

/-- Settles O3: a mask of the low bits is a truncation, here of the rotated word to 8 bits and of the word to 24. -/
theorem fieldsAreTheRotatedAndMaskedWord : Obligations.FieldsAreTheRotatedAndMaskedWord := by
  refine fun w => ⟨?_, ?_⟩
  · rw [opcField_eq_rotateLeft]
    exact (and_lowMask _ (n := 8) (by decide)).symm
  · rw [operandField_eq_setWidth]
    exact (and_lowMask _ (n := 24) (by decide)).symm

/-- Settles O4: a value outside the map has no place in it, and EXECUTE of NOP does not read its operand. -/
theorem unknownOpcodeDecodesAsNop : Obligations.UnknownOpcodeDecodesAsNop := by
  have hunknown (m : OpcodeMap) (w : Word) (hw : opcField w ∉ m) : decodeWith m w = .nop (operandField w) := by
    rw [decodeWith_eq_mnemonic, OpcodeMap.mnemonic_of_notMem hw]
  refine ⟨fun w hw => hunknown _ w fun hmem => ?_, hunknown, fun _ _ _ => rfl⟩
  exact hw.not_gt (OpcodeMap.toNat_lt_of_mem_default hmem)

/-- Settles O6: a known opcode value by its row of the default table, an unknown one as NOP. -/
theorem sampleWordsDecode : Obligations.SampleWordsDecode := by
  have row := defaultTableDecodesEveryRow
  obtain ⟨unknown, -, -⟩ := unknownOpcodeDecodesAsNop
  exact ⟨row 0 0 .nop rfl, row 0 1 .halt rfl, row 4 10 .addm rfl, row 0x00ABCD 29 .not rfl,
    row 0xFFFFFF 50 .jmplem rfl,
    unknown 0x33000000 (by decide), unknown 0x80000001 (by decide), unknown 0xFF123456 (by decide)⟩

end Sys2Proof.Proofs

/-!
PROOFS. 40_cycle_engine.md R103 to R113, R116 to R119: `step()` phase by phase, AdvancePC(), and the phases no
step leaves.
-/

namespace Sys2Proof.Machine
variable {s : State}

/-! The control instructions have one EXECUTE micro-step each, at UC = 0 (R116, R118, R119). -/

theorem exec_nop (x : Operand24) (hu : s.uc = 0) : exec (.nop x) s = .next s.advancePC :=
  singleMicroStep_next.2 ⟨hu, rfl⟩

theorem exec_halt (x : Operand24) (hu : s.uc = 0) : exec (.halt x) s = .next s.enterHalt :=
  singleMicroStep_next.2 ⟨hu, rfl⟩

theorem exec_brk (x : Operand24) (hu : s.uc = 0) : exec (.brk x) s = .next s.notifyBreak.advancePC :=
  singleMicroStep_next.2 ⟨hu, rfl⟩

/-- However often it is called, `step()` is idle in a phase in which each call of it is. -/
theorem run_of_step_idle {p : Phase} {r : StepResult} (h : ∀ u : State, u.ph = p → step u = .next (u.idleStep r))
    (hp : s.ph = p) (k : Nat) : run (k + 1) s = .next (s.idleStep r) := by
  induction k generalizing s with
  | zero => rw [run_succ_of_step (h s hp), run_zero]
  | succ k ih => rw [run_succ_of_step (h s hp), ih (s := s.idleStep r) hp]; rfl

end Sys2Proof.Machine

namespace Sys2Proof.Proofs
open Sys2Proof.Machine

/-- Settles O21: by induction on the number of calls, each of which is idle. -/
theorem haltAndErrorAreTerminal : Obligations.HaltAndErrorAreTerminal :=
  fun _ k => ⟨fun hp => run_of_step_idle (fun _ => step_halt) hp k,
    fun hp => run_of_step_idle (fun _ => step_error) hp k⟩

/-- Settles O15: `step` by its phase, at the state a micro-step is opened with. -/
theorem stepPerformsTheMicroStepOfThePhase : Obligations.StepPerformsTheMicroStepOfThePhase :=
  fun _ => ⟨step_fetch, step_indirect, step_execute, rfl⟩

/-- Settles O17: the micro-step of FETCH that UC selects. -/
theorem fetchReadsTheWordAtPc : Obligations.FetchReadsTheWordAtPc := by
  refine ⟨fun s hp hu => ?_, fun s hp hu ha => ?_⟩
  · exact (step_fetch hp).trans (fetchStep_next.2 (.inl ⟨hu, rfl⟩))
  · exact (step_fetch hp).trans (fetchStep_next.2 (.inr ⟨hu, ha, rfl⟩))

/-- Settles O18: the one INDIRECT micro-step of each of these classes. -/
theorem directAddressIsResolvedInOneMicroStep : Obligations.DirectAddressIsResolvedInOneMicroStep := by
  refine fun s hp hu => ⟨fun hc => ?_, fun hc => ?_⟩
  · exact (step_indirect hp).trans (indirectStep_next.2 (.inl ⟨hc, hu, rfl⟩))
  · exact (step_indirect hp).trans (indirectStep_next.2 (.inr (.inr (.inr ⟨hc, hu, rfl⟩))))

/-- Settles O19: the INDIRECT micro-step of the indirect class that UC selects. -/
theorem pointerIsFollowedInTwoMicroSteps : Obligations.PointerIsFollowedInTwoMicroSteps := by
  refine fun s hp hc => ⟨fun hu => ?_, fun hu ha => ?_⟩
  · exact (step_indirect hp).trans (indirectStep_next.2 (.inr (.inl ⟨hc, hu, rfl⟩)))
  · exact (step_indirect hp).trans (indirectStep_next.2 (.inr (.inr (.inl ⟨hc, hu, ha, rfl⟩))))

/-- Settles O20: PC < N - 1 is the model's test PC + 1 < N. -/
theorem advanceStopsAtTheLastAddress : Obligations.AdvanceStopsAtTheLastAddress := by
  refine fun s hn => ⟨fun hlt => ?_, fun hge => ?_⟩
  · exact if_pos (by omega)
  · exact if_neg (by omega)

/-- Settles O22: the one micro-step of each, its updates written out. -/
theorem controlInstructionsExecute : Obligations.ControlInstructionsExecute :=
  fun x _ hu => ⟨exec_nop x hu, exec_halt x hu, exec_brk x hu⟩

end Sys2Proof.Proofs

/-!
PROOFS. 40_cycle_engine.md R103 to R111: where an EXECUTE micro-step leaves the core, what AR holds in each phase, and
who writes PC and AR.
-/

namespace Sys2Proof.Machine
variable {i : Instr} {s t : State}

/-- Each end of an instruction: the next FETCH, or HALT (R111). -/
theorem State.advancePC_atBoundary (s : State) : s.advancePC.atBoundary := by
  rcases s.advancePC_cases with ⟨-, h⟩ | ⟨-, h⟩ <;> rw [h]
  · exact .inl ⟨rfl, rfl⟩
  · exact .inr (.inl rfl)

/-- EXECUTE has one micro-step or two (R120): the first of two stays in EXECUTE and keeps PC, the last one ends the
instruction. -/
theorem ExecStep.stays_or_ends (h : ExecStep i s t) :
    (s.uc = 0 ∧ execGroup i ≠ .single ∧ t.ph = s.ph ∧ t.uc = 1 ∧ t.pc = s.pc) ∨
    ((s.uc = 0 → execGroup i = .single) ∧ t.atBoundary) := by
  have second (hu : s.uc = 1) : s.uc = 0 → execGroup i = .single := fun h0 => by simp [hu] at h0
  cases h with
  | advance x hi => exact .inr ⟨fun _ => hi ▸ rfl, s.advancePC_atBoundary⟩
  | stop x hi => exact .inr ⟨fun _ => hi ▸ rfl, .inr (.inl rfl)⟩
  | pause x hi => exact .inr ⟨fun _ => hi ▸ rfl, s.notifyBreak.advancePC_atBoundary⟩
  | move x v hi =>
    exact .inr ⟨fun _ => by rcases hi with rfl | rfl | rfl | rfl <;> rfl, (s.setAcc v).advancePC_atBoundary⟩
  | store x hi =>
    exact .inr ⟨fun _ => by rcases hi with rfl | rfl <;> rfl, (s.setWord s.ar s.acc).advancePC_atBoundary⟩
  | jump x a hi => exact .inr ⟨fun _ => by rcases hi with rfl | rfl | rfl <;> rfl, .inl ⟨rfl, rfl⟩⟩
  | operand v hg hu => exact .inl ⟨hu, by rcases hg with hg | hg <;> simp [hg], rfl, rfl, rfl⟩
  | combine v _ hu => exact .inr ⟨second hu, (s.setAcc v).advancePC_atBoundary⟩
  | divideByZero _ hu => exact .inr ⟨second hu, .inr (.inr rfl)⟩
  | test b hg hu => exact .inl ⟨hu, by simp [hg], rfl, rfl, rfl⟩
  | taken a _ hu => exact .inr ⟨second hu, .inl ⟨rfl, rfl⟩⟩
  | untaken _ hu => exact .inr ⟨second hu, s.advancePC_atBoundary⟩

theorem ExecStep.current_eq (h : ExecStep i s t) : t.current = s.current := by
  rw [State.current, State.current, h.cfg_eq, h.ir_eq]

/-! AR by the phase. -/

theorem State.AddressResolved.of_atBoundary (h : s.atBoundary) : s.AddressResolved := by
  rcases h with ⟨hp, hu⟩ | hp | hp
  · simp [State.AddressResolved, hp, hu]
  · simp [State.AddressResolved, hp]
  · simp [State.AddressResolved, hp]

/-- FETCH has put PC into AR by its first micro-step (R103). -/
theorem State.AddressResolved.fetched (h : s.AddressResolved) (hp : s.ph = .fetch) (hu : s.uc = 1) : s.ar = s.pc := by
  simpa [State.AddressResolved, hp, hu] using h

/-- INDIRECT begins with AR as FETCH left it. -/
theorem State.AddressResolved.unresolved (h : s.AddressResolved) (hp : s.ph = .indirect) (hu : s.uc = 0) :
    s.ar = s.pc := by
  simpa [State.AddressResolved, hp, hu] using h

/-- In EXECUTE the claim is one about AR, PC, the parameters and the decoded instruction. -/
theorem State.AddressResolved.of_execute (h : s.AddressResolved) (hs : s.ph = .execute) (ht : t.ph = .execute)
    (hcfg : t.cfg = s.cfg) (har : t.ar = s.ar) (hpc : t.pc = s.pc) (hcur : t.current = s.current) :
    t.AddressResolved := by
  simp only [State.AddressResolved, hs] at h
  simp only [State.AddressResolved, ht, hcfg, har, hpc, hcur]
  exact h

/-- EXECUTE leaves AR, and PC too until it ends (R25, R109). -/
theorem State.AddressResolved.of_execStep (h : s.AddressResolved) (hp : s.ph = .execute) (he : ExecStep i s t) :
    t.AddressResolved := by
  rcases he.stays_or_ends with ⟨-, -, hph, -, hpc⟩ | ⟨-, hend⟩
  · exact h.of_execute hp (hph.trans hp) he.cfg_eq he.ar_eq hpc he.current_eq
  · exact .of_atBoundary hend

/-! The writers of PC. -/

/-- AdvancePC() writes PC only where it goes on to FETCH. -/
theorem State.advancePC_pc_of_fetch {s : State} (h : s.advancePC.ph = .fetch) :
    s.advancePC.pc = s.pc + 1 ∧ s.advancePC.pc < s.cfg.n := by
  rcases s.advancePC_cases with ⟨hlt, h'⟩ | ⟨-, h'⟩ <;> rw [h'] at h ⊢
  · exact ⟨rfl, hlt⟩
  · simp at h

theorem State.advancePC_pc_of_not_fetch {s : State} (h : s.advancePC.ph ≠ .fetch) : s.advancePC.pc = s.pc := by
  rcases s.advancePC_cases with ⟨-, h'⟩ | ⟨-, h'⟩ <;> rw [h'] at h ⊢
  · simp at h
  · rfl

/-- The micro-step to come is one in which a jump rule writes PC, of the given instruction (R203, R204). -/
def JumpsNext (i : Instr) (s : State) : Prop :=
  (s.uc = 0 ∧ ∃ x, i = .jmp x ∨ i = .jmpi x ∨ i = .jmpm x) ∨ (s.uc = 1 ∧ execGroup i = .condJump ∧ s.jf = true)

theorem State.takesJump_iff : s.takesJump ↔ s.ph = .execute ∧ JumpsNext s.current s := Iff.rfl

/-- An EXECUTE micro-step that goes on to FETCH advances or jumps (R110). -/
theorem ExecStep.pc_of_fetch (h : ExecStep i s t) (hs : s.ph = .execute) (ht : t.ph = .fetch) :
    (t.pc = s.pc + 1 ∧ t.pc < s.cfg.n) ∨ JumpsNext i s := by
  cases h with
  | advance | untaken => exact .inl (State.advancePC_pc_of_fetch ht)
  | pause => exact .inl (State.advancePC_pc_of_fetch (s := s.notifyBreak) ht)
  | move x v | combine v => exact .inl (State.advancePC_pc_of_fetch (s := s.setAcc v) ht)
  | store => exact .inl (State.advancePC_pc_of_fetch (s := s.setWord s.ar s.acc) ht)
  | jump x _ hi hu => exact .inr (.inl ⟨hu, x, hi⟩)
  | taken _ hg hu hj => exact .inr (.inr ⟨hu, hg, hj⟩)
  | operand | test => simp [hs] at ht
  | stop | divideByZero => simp at ht

theorem ExecStep.pc_of_not_fetch (h : ExecStep i s t) (ht : t.ph ≠ .fetch) : t.pc = s.pc := by
  cases h with
  | advance | untaken => exact State.advancePC_pc_of_not_fetch ht
  | pause => exact State.advancePC_pc_of_not_fetch (s := s.notifyBreak) ht
  | move x v | combine v => exact State.advancePC_pc_of_not_fetch (s := s.setAcc v) ht
  | store => exact State.advancePC_pc_of_not_fetch (s := s.setWord s.ar s.acc) ht
  | jump | taken => simp at ht
  | stop | operand | divideByZero | test => rfl

/-- AR is written by the first FETCH micro-step and by INDIRECT of the direct and indirect classes (R103, R105 to
R107). -/
theorem StepCase.ar_writers (h : StepCase s t) (hc : t.ar ≠ s.ar) :
    (s.ph = .fetch ∧ s.uc = 0) ∨
    (s.ph = .indirect ∧ (addrClass s.current = .direct ∨ addrClass s.current = .indirect)) := by
  cases h with
  | fetchAddress hp hu => exact .inl ⟨hp, hu⟩
  | directAddress hp _ hcls => exact .inr ⟨hp, .inl hcls⟩
  | pointerAddress hp _ hcls | pointer hp _ hcls => exact .inr ⟨hp, .inr hcls⟩
  | execute _ he => exact absurd he.ar_eq hc
  | fetchWord | noAddress | halted | faulted => exact absurd rfl hc

end Sys2Proof.Machine

namespace Sys2Proof.Proofs
open Sys2Proof.Machine

/-- Settles O47: FETCH puts PC into AR (PC is below N), INDIRECT resolves it by the class, EXECUTE leaves it. -/
theorem addressRegisterFollowsThePhase : Obligations.AddressRegisterFollowsThePhase := by
  intro s t hs har h
  cases step_next h with
  | fetchAddress hp =>
    have hmod : s.pc % s.cfg.n = s.pc := Nat.mod_eq_of_lt hs.pc
    simpa [State.AddressResolved, hp] using hmod
  | fetchWord hp hu => simpa [State.AddressResolved] using har.fetched hp hu
  | directAddress hp hu hc =>
    have hcls : addrClass ((s.openMicroStep.setAr (operandMod s.current.operand s.cfg.n)).enter .execute).current
        = .direct := hc
    simp only [State.AddressResolved, State.enter_ph, hcls]
    rfl
  | pointerAddress hp hu hc =>
    simp only [State.AddressResolved, State.stayInPhase_ph, State.setAr_ph, State.openMicroStep_ph, hp]
    rfl
  | pointer hp hu hc =>
    have hcls : addrClass ((s.openMicroStep.setAr (wordMod (s.mem.read s.ar) s.cfg.n)).enter .execute).current
        = .indirect := hc
    simp only [State.AddressResolved, State.enter_ph, hcls]
  | noAddress hp hu hc =>
    have hpc : s.ar = s.pc := har.unresolved hp hu
    have hcur : (s.openMicroStep.enter .execute).current = s.current := rfl
    rcases hc with hc | hc <;> simpa [State.AddressResolved, hcur, hc] using hpc
  | execute hp he => exact State.AddressResolved.of_execStep (s := s.openMicroStep) har hp he
  | halted hp => exact .of_atBoundary (.inr (.inl hp))
  | faulted hp => exact .of_atBoundary (.inr (.inr hp))

/-- Settles O49: outside EXECUTE the step keeps PC; in EXECUTE it writes PC only where it goes on to FETCH. -/
theorem addressesHaveOnlyTheirWriters : Obligations.AddressesHaveOnlyTheirWriters := by
  intro s t h
  have hframe (hp : s.ph ≠ .execute) : t.pc = s.pc := by
    obtain ⟨-, -, -, hpc, -⟩ := (step_next h).frame_of_not_execute hp
    exact hpc
  refine ⟨fun hp => hframe ?_, fun hc => ?_, (step_next h).ar_writers⟩
  · rcases hp with hp | hp <;> simp [hp]
  · have hp : s.ph = .execute := by
      by_contra hp
      exact hc (hframe hp)
    have he := execStep_of_step hp h
    have ht : t.ph = .fetch := by
      by_contra ht
      exact hc (he.pc_of_not_fetch ht)
    exact ⟨hp, ht, (he.pc_of_fetch hp ht).imp_right fun hj => State.takesJump_iff.2 ⟨hp, hj⟩⟩

end Sys2Proof.Proofs

/-!
PROOFS. 40_cycle_engine.md R102, R114, R115, R121, R122: what a step announces and returns.
-/

namespace Sys2Proof.Machine
variable {i : Instr} {s t u : State}

@[simp] theorem State.advancePC_out_trace (s : State) : s.advancePC.out.trace = s.out.trace := by
  rcases s.advancePC_cases with ⟨-, h⟩ | ⟨-, h⟩ <;> simp [h]

@[simp] theorem State.advancePC_out_result (s : State) : s.advancePC.out.result = s.out.result := by
  rcases s.advancePC_cases with ⟨-, h⟩ | ⟨-, h⟩ <;> simp [h]

@[simp] theorem State.advancePC_out_haltedBreak (s : State) : s.advancePC.out.haltedBreak = s.out.haltedBreak := by
  rcases s.advancePC_cases with ⟨-, h⟩ | ⟨-, h⟩ <;> simp [h]

/-! The Trace and the returned value. -/

/-- EXECUTE leaves the Trace its micro-step was opened with, and draws no other. -/
theorem ExecStep.trace_eq (h : ExecStep i s t) : t.out.trace = s.out.trace ∧ t.traceDraws = s.traceDraws := by
  cases h <;> simp

/-- Only the fault makes EXECUTE return the error (R122). -/
theorem ExecStep.cause_of_error (h : ExecStep i s t) (hs : s.out.result = .ok)
    (ht : t.out.result = .errorDivideByZero) : s.uc = 1 ∧ s.vr = 0#32 ∧ execGroup i = .divide := by
  cases h with
  | divideByZero hg hu hv => exact ⟨hu, hv, hg⟩
  | _ => simp [hs] at ht

/-- With VR = 0 the combine micro-step of every DIV and MOD form is the fault (R156). -/
theorem exec_divide_zero (hg : execGroup i = .divide) (hu : s.uc = 1) (hv : s.vr = 0#32) :
    exec i s = .next s.raiseDivideByZero := by
  have hfault (f : Word → Word → Word) (r : Result) :
      twoMicroSteps s r (combineUnlessZero f s) = .next s.raiseDivideByZero :=
    twoMicroSteps_next.2 (.inr ⟨hu, combineUnlessZero_next.2 (.inl ⟨hv, rfl⟩)⟩)
  cases i with
  | div | divi | divm | mod | modi | modm => exact hfault _ _
  | _ => cases hg

/-! RegChanged and MemChanged. A batch grows update by update, so what is said of it is said relative to the
batch before. -/

/-- From value `a` and notification `m` to `b` and `n`: both are kept, or the new value is announced. -/
def Reported {α : Type} (a b : α) (m n : Option α) : Prop := (b = a ∧ n = m) ∨ n = some b

namespace Reported
variable {α : Type} {a b c : α} {m n o : Option α}

theorem kept : Reported a a m m := .inl ⟨rfl, rfl⟩

theorem written : Reported a b m (some b) := .inr rfl

theorem trans (h₁ : Reported a b m n) (h₂ : Reported b c n o) : Reported a c m o := by
  rcases h₂ with ⟨rfl, rfl⟩ | h₂
  · exact h₁
  · exact .inr h₂

/-- Where nothing was announced before, a change is announced, and what is announced is the new value. -/
theorem announced (h : Reported a b none n) : (b ≠ a → n = some b) ∧ ∀ v, n = some v → b = v := by
  rcases h with ⟨rfl, rfl⟩ | rfl
  · exact ⟨fun hc => absurd rfl hc, nofun⟩
  · exact ⟨fun _ => rfl, fun v hv => Option.some.inj hv⟩

end Reported

/-- The six reported registers and memory went from `s` to `t` by reported updates (R114). -/
structure State.ReportedFrom (s t : State) : Prop where
  acc : Reported s.acc t.acc s.out.acc t.out.acc
  vr : Reported s.vr t.vr s.out.vr t.out.vr
  ir : Reported s.ir t.ir s.out.ir t.out.ir
  pc : Reported s.pc t.pc s.out.pc t.out.pc
  ar : Reported s.ar t.ar s.out.ar t.out.ar
  jf : Reported s.jf t.jf s.out.jf t.out.jf
  mem : Reported s.mem t.mem s.out.mem t.out.mem

namespace State.ReportedFrom

theorem trans (h₁ : s.ReportedFrom t) (h₂ : t.ReportedFrom u) : s.ReportedFrom u where
  acc := h₁.acc.trans h₂.acc
  vr := h₁.vr.trans h₂.vr
  ir := h₁.ir.trans h₂.ir
  pc := h₁.pc.trans h₂.pc
  ar := h₁.ar.trans h₂.ar
  jf := h₁.jf.trans h₂.jf
  mem := h₁.mem.trans h₂.mem

section
variable (s : State)

theorem refl : s.ReportedFrom s := ⟨.kept, .kept, .kept, .kept, .kept, .kept, .kept⟩
theorem setAcc (v : Word) : s.ReportedFrom (s.setAcc v) := ⟨.written, .kept, .kept, .kept, .kept, .kept, .kept⟩
theorem setVr (v : Word) : s.ReportedFrom (s.setVr v) := ⟨.kept, .written, .kept, .kept, .kept, .kept, .kept⟩
theorem setIr (v : Word) : s.ReportedFrom (s.setIr v) := ⟨.kept, .kept, .written, .kept, .kept, .kept, .kept⟩
theorem setPc (v : Nat) : s.ReportedFrom (s.setPc v) := ⟨.kept, .kept, .kept, .written, .kept, .kept, .kept⟩
theorem setAr (v : Nat) : s.ReportedFrom (s.setAr v) := ⟨.kept, .kept, .kept, .kept, .written, .kept, .kept⟩
theorem setJf (v : Bool) : s.ReportedFrom (s.setJf v) := ⟨.kept, .kept, .kept, .kept, .kept, .written, .kept⟩
theorem setWord (a : Nat) (v : Word) : s.ReportedFrom (s.setWord a v) :=
  ⟨.kept, .kept, .kept, .kept, .kept, .kept, .written⟩

end

/-- An update of UC, PH, FLT and other notifications reports as much as what it updates. -/
theorem stayInPhase (h : s.ReportedFrom t) : s.ReportedFrom t.stayInPhase :=
  ⟨h.acc, h.vr, h.ir, h.pc, h.ar, h.jf, h.mem⟩
theorem enter (h : s.ReportedFrom t) (p : Phase) : s.ReportedFrom (t.enter p) :=
  ⟨h.acc, h.vr, h.ir, h.pc, h.ar, h.jf, h.mem⟩
theorem enterHalt (h : s.ReportedFrom t) : s.ReportedFrom t.enterHalt :=
  ⟨h.acc, h.vr, h.ir, h.pc, h.ar, h.jf, h.mem⟩
theorem notifyBreak (h : s.ReportedFrom t) : s.ReportedFrom t.notifyBreak :=
  ⟨h.acc, h.vr, h.ir, h.pc, h.ar, h.jf, h.mem⟩
theorem raiseDivideByZero (h : s.ReportedFrom t) : s.ReportedFrom t.raiseDivideByZero :=
  ⟨h.acc, h.vr, h.ir, h.pc, h.ar, h.jf, h.mem⟩

theorem advancePC (h : s.ReportedFrom t) : s.ReportedFrom t.advancePC := by
  rcases t.advancePC_cases with ⟨-, h'⟩ | ⟨-, h'⟩ <;> rw [h']
  · exact (h.trans (.setPc t _)).enter .fetch
  · exact h.enterHalt

theorem of_execStep (h : ExecStep i s t) : s.ReportedFrom t := by
  cases h with
  | advance | untaken => exact (refl s).advancePC
  | stop => exact (refl s).enterHalt
  | pause => exact (refl s).notifyBreak.advancePC
  | move x v | combine v => exact (setAcc s v).advancePC
  | store => exact (setWord s _ _).advancePC
  | jump x a => exact (setPc s a).enter .fetch
  | operand v => exact (setVr s v).stayInPhase
  | divideByZero => exact (refl s).raiseDivideByZero
  | test b => exact (setJf s b).stayInPhase
  | taken a => exact ((setPc s a).trans (setJf _ false)).enter .fetch

end State.ReportedFrom

/-- What a micro-step announces of the registers and memory, from the silent batch it begins with. -/
theorem StepCase.reported (h : StepCase s t) : { s with out := Output.silent }.ReportedFrom t := by
  have opened : { s with out := Output.silent }.ReportedFrom s.openMicroStep :=
    ⟨.kept, .kept, .kept, .kept, .kept, .kept, .kept⟩
  cases h with
  | fetchAddress | pointerAddress => exact (opened.trans (.setAr _ _)).stayInPhase
  | fetchWord => exact (opened.trans (.setIr _ _)).enter .indirect
  | directAddress | pointer => exact (opened.trans (.setAr _ _)).enter .execute
  | noAddress => exact opened.enter .execute
  | execute _ he => exact opened.trans (.of_execStep he)
  | halted | faulted => exact ⟨.kept, .kept, .kept, .kept, .kept, .kept, .kept⟩

/-! PhaseChanged and Halted. -/

/-- From phase `p` to phase `q`: what PhaseChanged and Halted(Terminal) announce of it (R102, R114). -/
inductive PhaseReport (p : Phase) : Phase → Option Phase → Bool → Prop where
  | stay : PhaseReport p p none false
  | goOn {q : Phase} : q ≠ p → q ≠ .halt → q ≠ .error → PhaseReport p q (some q) false
  | halt : p ≠ .halt → PhaseReport p .halt (some .halt) true
  | fault : PhaseReport p .error none false

theorem PhaseReport.announced {p q : Phase} {n : Option Phase} {b : Bool} (h : PhaseReport p q n b) :
    ((q ≠ p → q ≠ .error → n = some q) ∧ ∀ r, n = some r → q = r ∧ r ≠ p ∧ r ≠ .error) ∧
    (b = true ↔ q = .halt ∧ p ≠ .halt) := by
  cases h with
  | stay => simp
  | goOn hp hh he =>
    refine ⟨⟨fun _ _ => rfl, ?_⟩, by simp [hh]⟩
    rintro r ⟨⟩
    exact ⟨rfl, hp, he⟩
  | halt hp => simpa using ⟨hp.symm, hp⟩
  | fault => simp

/-- The end of an instruction announces FETCH or, at the last address, HALT and Halted(Terminal) (R111). -/
theorem State.advancePC_phaseReport (hb : s.out.haltedTerminal = false) :
    PhaseReport .execute s.advancePC.ph s.advancePC.out.phase s.advancePC.out.haltedTerminal := by
  rcases s.advancePC_cases with ⟨-, h⟩ | ⟨-, h⟩ <;> rw [h]
  · simpa [hb] using PhaseReport.goOn (p := .execute) (q := .fetch) nofun nofun nofun
  · exact .halt nofun

theorem ExecStep.phaseReport (h : ExecStep i s t) (hs : s.ph = .execute) (hn : s.out.phase = none)
    (hb : s.out.haltedTerminal = false) : PhaseReport .execute t.ph t.out.phase t.out.haltedTerminal := by
  have fetch : PhaseReport .execute .fetch (some .fetch) s.out.haltedTerminal :=
    hb ▸ .goOn nofun nofun nofun
  have kept : PhaseReport .execute s.ph s.out.phase s.out.haltedTerminal := by
    rw [hs, hn, hb]
    exact .stay
  cases h with
  | advance | untaken => exact State.advancePC_phaseReport hb
  | pause => exact State.advancePC_phaseReport (s := s.notifyBreak) hb
  | move x v | combine v => exact State.advancePC_phaseReport (s := s.setAcc v) hb
  | store => exact State.advancePC_phaseReport (s := s.setWord s.ar s.acc) hb
  | stop => exact .halt nofun
  | jump | taken => exact fetch
  | operand | test => exact kept
  | divideByZero =>
    simp only [State.raiseDivideByZero_ph, State.raiseDivideByZero_out, hn, hb]
    exact .fault

theorem StepCase.phaseReport (h : StepCase s t) : PhaseReport s.ph t.ph t.out.phase t.out.haltedTerminal := by
  cases h with
  | fetchWord hp | directAddress hp | pointer hp | noAddress hp => exact hp ▸ .goOn nofun nofun nofun
  | fetchAddress | pointerAddress | halted | faulted => exact .stay
  | execute hp he => exact hp ▸ he.phaseReport hp rfl rfl

/-- In EXECUTE it is BREAK that announces Halted(Break) (R119). -/
theorem ExecStep.haltedBreak_iff (h : ExecStep i s t) (hs : s.out.haltedBreak = false) :
    t.out.haltedBreak = true ↔ ∃ x, i = .brk x := by
  cases h with
  | pause x hi => simpa using ⟨x, hi⟩
  | advance x hi | stop x hi => simp [hs, hi]
  | move x v hi => rcases hi with rfl | rfl | rfl | rfl <;> simp [hs]
  | store x hi => rcases hi with rfl | rfl <;> simp [hs]
  | jump x a hi => rcases hi with rfl | rfl | rfl <;> simp [hs]
  | operand v hg | combine v hg =>
    have hi : ¬ ∃ x, i = .brk x := by
      rintro ⟨x, rfl⟩
      simp [execGroup] at hg
    simp [hs, hi]
  | divideByZero hg | test b hg | taken a hg | untaken hg =>
    have hi : ¬ ∃ x, i = .brk x := by
      rintro ⟨x, rfl⟩
      cases hg
    simp [hs, hi]

theorem StepCase.haltedBreak_iff (h : StepCase s t) :
    t.out.haltedBreak = true ↔ s.ph = .execute ∧ ∃ x, s.current = .brk x := by
  cases h with
  | execute hp he => simpa [hp] using he.haltedBreak_iff rfl
  | fetchAddress hp | fetchWord hp | directAddress hp | pointerAddress hp | pointer hp | noAddress hp | halted hp
  | faulted hp => simp [hp, Output.silent]

end Sys2Proof.Machine

namespace Sys2Proof.Proofs
open Sys2Proof.Machine

/-- Settles O52: registers and memory by the reported updates each micro-step is made of, the phase and the two Halted
by the kinds of micro-step. -/
theorem everyChangeIsAnnounced : Obligations.EveryChangeIsAnnounced := by
  intro s t h
  have hst := step_next h
  obtain ⟨hacc, hvr, hir, hpc, har, hjf, hmem⟩ := hst.reported
  obtain ⟨hphase, hterminal⟩ := hst.phaseReport.announced
  exact ⟨hacc.announced, hvr.announced, hir.announced, hpc.announced, har.announced, hjf.announced, hmem.announced,
    hphase, hterminal, hst.haltedBreak_iff⟩

/-- Settles O53: a micro-step is opened with its Trace, which nothing in it changes; an idle step has none. -/
theorem eachMicroStepEmitsOneTrace : Obligations.EachMicroStepEmitsOneTrace := by
  intro s t h
  cases step_next h with
  | execute hp he => simpa [hp] using he.trace_eq
  | fetchAddress hp | fetchWord hp | directAddress hp | pointerAddress hp | pointer hp | noAddress hp | halted hp
  | faulted hp => simp [hp, Output.silent]

/-- Settles O54: in EXECUTE the error is the fault's, and with VR = 0 a DIV or MOD form has no other micro-step. -/
theorem stepReturnsTheErrorExactlyInAFault : Obligations.StepReturnsTheErrorExactlyInAFault := by
  intro s t h
  cases step_next h with
  | execute hp he =>
    refine ⟨fun hr => .inr ⟨hp, he.cause_of_error rfl hr⟩, fun hc => ?_⟩
    obtain hp' | ⟨-, hu, hv, hg⟩ := hc
    · simp [hp] at hp'
    · have ht := exec_divide_zero (s := s.openMicroStep) hg hu hv
      rw [← step_execute hp, h] at ht
      cases ht
      rfl
  | fetchAddress hp | fetchWord hp | directAddress hp | pointerAddress hp | pointer hp | noAddress hp | halted hp
  | faulted hp => simp [hp, Output.silent]

end Sys2Proof.Proofs

/-!
PROOFS. 40_cycle_engine.md R103 to R109, R116 to R119: FETCH and INDIRECT as a whole, by the addressing class, and the
control instructions whole.
-/

namespace Sys2Proof.Machine
variable {i : Instr} {s t u : State}

/-- Decoding reads the opcode map and IR alone, so the core's own part fixes the instruction (R101). -/
theorem State.fetches.current_eq (hs : s.fetches i) (hcfg : t.arch.cfg = s.cfg) (hir : t.arch.ir = s.mem.read s.pc) :
    t.current = i := by
  obtain ⟨-, -, hi⟩ := hs
  have hcfg' : t.cfg = s.cfg := hcfg
  have hir' : t.ir = s.mem.read s.pc := hir
  rw [State.current, hcfg', hir', hi]

/-- FETCH (R103, R104), and the instruction it leaves to INDIRECT. -/
theorem run_fetch_current (hs : s.fetches i) :
    ∃ t, run 2 s = .next t ∧ t.current = i ∧
      t.arch = { s.arch with ir := s.mem.read s.pc, ar := s.pc, ph := .indirect, uc := 0 } := by
  have ⟨hfetch, hpc, _⟩ := hs
  obtain ⟨t, hrun, ht⟩ := run_fetch hfetch hpc
  exact ⟨t, hrun, hs.current_eq (by rw [ht]; rfl) (by rw [ht]), ht⟩

/-- FETCH and INDIRECT of an instruction that resolves no address (R108): AR is left at PC. -/
theorem run_fetch_noAddress (hs : s.fetches i) (hc : addrClass i = .immediate ∨ addrClass i = .none) :
    ∃ t, run 3 s = .next t ∧ t.arch = s.resolvedAt s.pc := by
  obtain ⟨t, hrun, hcur, ht⟩ := run_fetch_current hs
  have hstep : step t = .next (t.openMicroStep.enter .execute) := by
    rw [step_indirect (congrArg Arch.ph ht), hcur]
    exact indirectStep_next.2 (.inr (.inr (.inr ⟨hc, congrArg Arch.uc ht, rfl⟩)))
  refine ⟨_, run_succ_of_run hrun hstep, ?_⟩
  calc (t.openMicroStep.enter .execute).arch = { t.arch with ph := .execute, uc := 0 } := rfl
    _ = s.resolvedAt s.pc := by rw [ht]; rfl

/-- FETCH and INDIRECT of an indirect form (R106, R107): AR is at the operand's address, then at the pointer found
there. -/
theorem run_fetch_indirect (hs : s.fetches i) (hc : addrClass i = .indirect) :
    ∃ t, run 4 s = .next t ∧ t.arch = s.resolvedAt (s.indirectAddress i.operand) := by
  obtain ⟨t, hrun, hcur, ht⟩ := run_fetch_current hs
  have ⟨_, hpc, _⟩ := hs
  have hcfg : t.cfg = s.cfg := congrArg Arch.cfg ht
  have hp : t.ph = .indirect := congrArg Arch.ph ht
  have haddress : step t = .next (t.openMicroStep.setAr (s.directAddress i.operand)).stayInPhase := by
    rw [step_indirect hp, hcur]
    refine indirectStep_next.2 (.inr (.inl ⟨hc, congrArg Arch.uc ht, ?_⟩))
    rw [State.openMicroStep_cfg, hcfg]
    rfl
  have hlt : s.directAddress i.operand < t.cfg.n := by
    rw [hcfg]
    exact Nat.mod_lt _ (Nat.zero_lt_of_lt hpc)
  have hpointer : step (t.openMicroStep.setAr (s.directAddress i.operand)).stayInPhase = .next _ :=
    (step_indirect (s := (t.openMicroStep.setAr _).stayInPhase) hp).trans
      (indirectStep_next.2 (.inr (.inr (.inl ⟨hcur.symm ▸ hc, rfl, hlt, rfl⟩))))
  refine ⟨_, run_succ_of_run (run_succ_of_run hrun haddress) hpointer, ?_⟩
  calc
    _ = { t.arch with
        ar := wordMod (t.arch.mem.read (s.directAddress i.operand)) t.arch.cfg.n, ph := .execute, uc := 0 } := rfl
    _ = s.resolvedAt (s.indirectAddress i.operand) := by rw [ht]; rfl

/-- At the beginning of EXECUTE the next step is the fetched instruction's (R109). -/
theorem State.fetches.step_eq_exec {a : Nat} (hs : s.fetches i) (ht : t.arch = s.resolvedAt a) :
    step t = exec i t.openMicroStep := by
  have hcur : t.current = i := hs.current_eq (by rw [ht]; rfl) (by rw [ht]; rfl)
  rw [step_execute (congrArg Arch.ph ht), hcur]

/-- An instruction of class None whose EXECUTE is one micro-step `f`, whole: the fourth micro-step is `f`. -/
theorem run_none {f : State → State} (hs : s.fetches i) (hc : addrClass i = .none)
    (hf : ∀ u : State, u.uc = 0 → exec i u = .next (f u)) :
    ∃ t : State, run 4 s = .next (f t.openMicroStep) ∧ t.arch = s.resolvedAt s.pc := by
  obtain ⟨t, hrun, ht⟩ := run_fetch_noAddress hs (.inr hc)
  have hstep : step t = .next (f t.openMicroStep) := (hs.step_eq_exec ht).trans (hf _ (congrArg Arch.uc ht))
  exact ⟨t, run_succ_of_run hrun hstep, ht⟩

end Sys2Proof.Machine

namespace Sys2Proof.Proofs
open Sys2Proof.Machine

/-- Settles O16: FETCH is the same for every instruction, INDIRECT goes by the addressing class. -/
theorem fetchedInstructionIsExecuted : Obligations.FetchedInstructionIsExecuted := by
  intro s i hs
  have withStep {k a : Nat} (h : ∃ t, run k s = .next t ∧ t.arch = s.resolvedAt a) :
      ∃ t, run k s = .next t ∧ t.arch = s.resolvedAt a ∧ step t = exec i t.openMicroStep := by
    obtain ⟨t, hrun, ht⟩ := h
    exact ⟨t, hrun, ht, hs.step_eq_exec ht⟩
  cases hc : addrClass i with
  | direct => exact withStep (run_fetch_direct hs hc)
  | indirect => exact withStep (run_fetch_indirect hs hc)
  | immediate => exact withStep (run_fetch_noAddress hs (.inl hc))
  | none => exact withStep (run_fetch_noAddress hs (.inr hc))

/-- Settles O31: the fourth micro-step enters HALT and writes nothing else. -/
theorem haltInstructionHalts : Obligations.HaltInstructionHalts := by
  intro x s hs
  obtain ⟨t, hrun, ht⟩ := run_none (f := State.enterHalt) hs rfl fun _ => exec_halt x
  refine ⟨_, hrun, ?_, rfl, rfl⟩
  calc t.openMicroStep.enterHalt.arch = { t.arch with ph := .halt, uc := 0 } := rfl
    _ = { s.resolvedAt s.pc with ph := .halt } := by rw [ht]; rfl

/-- Settles O32: an unknown opcode decodes as NOP, and the fourth micro-step of NOP and BREAK is the advance. -/
theorem nopUnknownAndBreakOnlyAdvance : Obligations.NopUnknownAndBreakOnlyAdvance := by
  intro x s
  have nop (y : Operand24) (hs : s.fetches (.nop y)) :
      ∃ t, run 4 s = .next t ∧ t.arch = (s.resolvedAt s.pc).advanced ∧ t.out.haltedBreak = false := by
    obtain ⟨t, hrun, ht⟩ := run_none (f := State.advancePC) hs rfl fun _ => exec_nop y
    exact ⟨_, hrun, ht ▸ State.arch_advancePC t.openMicroStep, by simp [Output.silent]⟩
  refine ⟨nop x, fun hf hpc hw => ?_, fun hs => ?_⟩
  · obtain ⟨-, unknown, -⟩ := unknownOpcodeDecodesAsNop
    exact nop _ ⟨hf, hpc, unknown s.cfg.opcodeMap (s.mem.read s.pc) hw⟩
  · obtain ⟨t, hrun, ht⟩ := run_none (f := fun u => u.notifyBreak.advancePC) hs rfl fun _ => exec_brk x
    exact ⟨_, hrun, ht ▸ State.arch_advancePC t.openMicroStep.notifyBreak, by simp⟩

end Sys2Proof.Proofs

/-!
PROOFS. 40_cycle_engine.md R120 and 95_test_vectors.md V-P1: how many micro-steps an instruction takes, and how many a
run in which no jump is taken.
-/

namespace Sys2Proof.Machine
variable {i : Instr} {s t : State}

/-- The INDIRECT micro-steps of an instruction (R105 to R108). -/
def indirectMicroSteps (i : Instr) : Nat := if addrClass i = .indirect then 2 else 1

/-- The EXECUTE micro-steps of an instruction (R120). -/
def executeMicroSteps (i : Instr) : Nat := if execGroup i = .single then 1 else 2

theorem indirectMicroSteps_of_ne (h : addrClass i ≠ .indirect) : indirectMicroSteps i = 1 := if_neg h

theorem indirectMicroSteps_of_indirect (h : addrClass i = .indirect) : indirectMicroSteps i = 2 := if_pos h

theorem executeMicroSteps_of_single (h : execGroup i = .single) : executeMicroSteps i = 1 := if_pos h

theorem executeMicroSteps_of_ne (h : execGroup i ≠ .single) : executeMicroSteps i = 2 := if_neg h

/-- How many micro-steps a core that has begun FETCH of the instruction has to go to the instruction's end. -/
def State.stepsLeft (i : Instr) (s : State) : Nat :=
  match s.ph with
  | .fetch => if s.uc = 0 then 0 else indirectMicroSteps i + executeMicroSteps i + 1
  | .indirect => if s.uc = 0 then indirectMicroSteps i + executeMicroSteps i else executeMicroSteps i + 1
  | .execute => if s.uc = 0 then executeMicroSteps i else 1
  | .halt => 0
  | .error => 0

/-- None are left exactly at the boundaries. -/
theorem State.stepsLeft_eq_zero_iff (i : Instr) (s : State) : s.stepsLeft i = 0 ↔ s.atBoundary := by
  have he : executeMicroSteps i ≠ 0 := by unfold executeMicroSteps; split <;> decide
  cases hp : s.ph with
  | indirect | execute =>
    by_cases hu : s.uc = 0 <;> simp [State.stepsLeft, State.atBoundary, State.atFetch, hp, hu, he]
  | fetch | halt | error => simp [State.stepsLeft, State.atBoundary, State.atFetch, hp, he]

/-- The instruction the core performs: in FETCH the one whose word is at AR, later the one in IR. -/
def State.performs (i : Instr) (s : State) : Prop :=
  decodeWith s.cfg.opcodeMap (if s.ph = .fetch then s.mem.read s.ar else s.ir) = i

theorem State.performs.current_eq (h : s.performs i) (hp : s.ph ≠ .fetch) : s.current = i := by
  rwa [State.performs, if_neg hp] at h

theorem State.performs_of_current (h : s.current = i) (hp : s.ph ≠ .fetch) : s.performs i := by
  rwa [State.performs, if_neg hp]

/-- The instruction stays the same until its end: FETCH moves its word from AR to IR (R104), later IR is left. -/
theorem StepCase.performs (h : StepCase s t) (hi : s.performs i) (hs : ¬ s.atBoundary) (ht : ¬ t.atBoundary) :
    t.performs i := by
  cases h with
  | fetchAddress hp hu => exact absurd (.inl ⟨hp, hu⟩) hs
  | fetchWord hp =>
    rw [State.performs, if_pos hp] at hi
    exact State.performs_of_current hi nofun
  | directAddress hp | pointer hp | noAddress hp =>
    exact State.performs_of_current (hi.current_eq (by simp [hp])) nofun
  | pointerAddress hp => exact State.performs_of_current (hi.current_eq (by simp [hp])) (by simp [hp])
  | execute hp he =>
    rcases he.stays_or_ends with ⟨-, -, hph, -⟩ | ⟨-, hend⟩
    · exact State.performs_of_current (he.current_eq.trans (hi.current_eq (by simp [hp]))) (by simp [hph, hp])
    · exact absurd hend ht
  | halted hp => exact absurd (.inr (.inl hp)) hs
  | faulted hp => exact absurd (.inr (.inr hp)) hs

/-- Each micro-step of an instruction leaves one less to go. -/
theorem StepCase.stepsLeft (h : StepCase s t) (hi : s.performs i) (hs : ¬ s.atBoundary) :
    s.stepsLeft i = t.stepsLeft i + 1 := by
  cases h with
  | fetchAddress hp hu => exact absurd (.inl ⟨hp, hu⟩) hs
  | directAddress hp hu hc =>
    have hind := indirectMicroSteps_of_ne (i := i) (by simp [← hi.current_eq, hp, hc])
    simp [State.stepsLeft, hp, hu, hind, Nat.add_comm]
  | pointerAddress hp hu hc =>
    have hind := indirectMicroSteps_of_indirect (hi.current_eq (by simp [hp]) ▸ hc)
    simp [State.stepsLeft, hp, hu, hind, Nat.add_comm 2]
  | fetchWord hp hu | pointer hp hu => simp [State.stepsLeft, hp, hu]
  | noAddress hp hu hc =>
    have hind := indirectMicroSteps_of_ne (i := i) (by rcases hc with hc | hc <;> simp [← hi.current_eq, hp, hc])
    simp [State.stepsLeft, hp, hu, hind, Nat.add_comm]
  | execute hp he =>
    rw [hi.current_eq (by simp [hp])] at he
    rcases he.stays_or_ends with ⟨hu, hg, hph, hut, -⟩ | ⟨hg, hend⟩
    · have hu' : s.uc = 0 := hu
      simp [State.stepsLeft, hp, hph, hut, hu', executeMicroSteps_of_ne hg]
    · rw [(State.stepsLeft_eq_zero_iff i t).2 hend]
      by_cases hu : s.uc = 0
      · simp [State.stepsLeft, hp, hu, executeMicroSteps_of_single (hg hu)]
      · simp [State.stepsLeft, hp, hu]
  | halted hp => exact absurd (.inr (.inl hp)) hs
  | faulted hp => exact absurd (.inr (.inr hp)) hs

/-- From a state with the invariant there is a next state, and it has the invariant. -/
theorem State.Inv.exists_step (hs : s.Inv) : ∃ t, step s = .next t ∧ t.Inv := by
  obtain ⟨t, h⟩ := Proofs.stepAlwaysAnswersANextState s hs
  exact ⟨t, h, Proofs.stepKeepsTheInvariant s t hs h⟩

/-- The run from state `s` reaches a boundary with its `k`-th micro-step and not before. -/
def FirstBoundaryAt (k : Nat) (s : State) : Prop :=
  (∃ t, run k s = .next t ∧ t.atBoundary) ∧ ∀ j < k, ∃ u, run j s = .next u ∧ ¬ u.atBoundary

theorem FirstBoundaryAt.succ {k : Nat} (hs : ¬ s.atBoundary) (h : step s = .next t) (ht : FirstBoundaryAt k t) :
    FirstBoundaryAt (k + 1) s := by
  obtain ⟨hend, hbefore⟩ := ht
  refine ⟨by rwa [run_succ_of_step h], fun j hj => ?_⟩
  cases j with
  | zero => exact ⟨s, rfl, hs⟩
  | succ j =>
    rw [run_succ_of_step h]
    exact hbefore j (Nat.lt_of_succ_lt_succ hj)

/-- An instruction that has begun takes exactly the micro-steps left to it. -/
theorem firstBoundaryAt_stepsLeft (hs : s.Inv) (hi : ¬ s.atBoundary → s.performs i) :
    FirstBoundaryAt (s.stepsLeft i) s := by
  induction hk : s.stepsLeft i generalizing s with
  | zero => exact ⟨⟨s, rfl, (State.stepsLeft_eq_zero_iff i s).1 hk⟩, nofun⟩
  | succ k ih =>
    have hb : ¬ s.atBoundary := fun hb => by simp [(State.stepsLeft_eq_zero_iff i s).2 hb] at hk
    obtain ⟨t, h, ht⟩ := hs.exists_step
    have hleft := (step_next h).stepsLeft (hi hb) hb
    exact .succ hb h (ih ht ((step_next h).performs (hi hb) hb) (by omega))

/-- R120's table as a sum: two micro-steps of FETCH, then INDIRECT and EXECUTE. -/
theorem takes_microSteps (i : Instr) : Takes i (2 + indirectMicroSteps i + executeMicroSteps i) := by
  intro s hs hf hi
  obtain ⟨t, h, ht⟩ := hs.exists_step
  obtain ⟨hp, hu⟩ := hf
  have hmod : s.pc % s.cfg.n = s.pc := Nat.mod_eq_of_lt hs.pc
  have haddress : t = (s.openMicroStep.setAr s.pc).stayInPhase := by
    rw [step_fetch hp] at h
    rcases fetchStep_next.1 h with ⟨-, rfl⟩ | ⟨hu', -⟩
    · simp [hmod]
    · simp [hu] at hu'
  have hperforms : t.performs i := by simpa [haddress, State.performs, hp] using hi
  have hleft : t.stepsLeft i = indirectMicroSteps i + executeMicroSteps i + 1 := by
    simp [haddress, State.stepsLeft, hp]
  obtain ⟨hend, hbefore⟩ := firstBoundaryAt_stepsLeft ht fun _ => hperforms
  have hk : 2 + indirectMicroSteps i + executeMicroSteps i = t.stepsLeft i + 1 := by omega
  refine ⟨by rwa [hk, run_succ_of_step h], fun j hj hlt => ?_⟩
  obtain ⟨j, rfl⟩ := Nat.exists_eq_succ_of_ne_zero hj.ne'
  rw [run_succ_of_step h]
  exact hbefore j (by omega)

/-- R120's row for an instruction, read off its addressing class and its group. -/
theorem takes_of_microSteps {k : Nat} (h : 2 + indirectMicroSteps i + executeMicroSteps i = k) : Takes i k :=
  h ▸ takes_microSteps i

/-! A bound for runs without jumps (V-P1): an instruction takes at most 6 micro-steps, and PC only advances. -/

/-- The micro-steps a core may still take if no jump is taken: what is left of the present instruction, and 6 for each
address above PC. -/
def State.budget (s : State) : Nat :=
  match s.ph with
  | .fetch => 6 * (s.cfg.n - 1 - s.pc) + 6 - s.uc
  | .indirect => 6 * (s.cfg.n - 1 - s.pc) + 4 - s.uc
  | .execute => 6 * (s.cfg.n - 1 - s.pc) + 2 - s.uc
  | .halt => 0
  | .error => 0

theorem State.budget_eq_zero_of_ended (h : s.ph = .halt ∨ s.ph = .error) : s.budget = 0 := by
  rcases h with h | h <;> simp [State.budget, h]

/-- A run is over only in HALT and ERROR, with the fault record they stand for (R362). -/
theorem State.Inv.ended_of_budget_eq_zero (hs : s.Inv) (h : s.budget = 0) : s.halted ∨ s.faulted := by
  have huc : (s.uc : Nat) < 2 := s.uc.isLt
  cases hp : s.ph with
  | fetch | indirect | execute =>
    simp only [State.budget, hp] at h
    omega
  | halt => exact .inl ⟨hp, hs.control.flt_eq_noFault (by simp [hp])⟩
  | error => exact .inr ⟨hp, hs.flt.2 hp⟩

/-- EXECUTE without a jump: it goes on to UC = 1, or to the next address, or it ends the run. -/
theorem ExecStep.budget_lt (h : ExecStep i s t) (hp : s.ph = .execute) (hj : ¬ JumpsNext i s) :
    t.budget < s.budget := by
  have hcfg := h.cfg_eq
  have huc : (s.uc : Nat) < 2 := s.uc.isLt
  have hpos : s.budget = 6 * (s.cfg.n - 1 - s.pc) + 2 - s.uc := by simp [State.budget, hp]
  rcases h.stays_or_ends with ⟨hu, -, hph, hut, hpc⟩ | ⟨-, ⟨hf, hut⟩ | hend⟩
  · have hbt : t.budget = 6 * (s.cfg.n - 1 - s.pc) + 1 := by simp [State.budget, hph, hp, hut, hpc, hcfg]
    rw [hpos, hbt, hu]
    simp
  · obtain ⟨hpc, hlt⟩ := (h.pc_of_fetch hp hf).resolve_right hj
    have hbt : t.budget = 6 * (s.cfg.n - 1 - (s.pc + 1)) + 6 := by simp [State.budget, hf, hut, hpc, hcfg]
    omega
  · rw [State.budget_eq_zero_of_ended hend]
    omega

/-- A micro-step in which no jump is taken uses up some of the budget, unless the run has ended. -/
theorem StepCase.budget_lt (h : StepCase s t) (hj : ¬ s.takesJump) (hs : s.budget ≠ 0) : t.budget < s.budget := by
  cases h with
  | fetchAddress hp hu | fetchWord hp hu | directAddress hp hu | pointerAddress hp hu | pointer hp hu
  | noAddress hp hu =>
    simp [State.budget, hp, hu]
  | execute hp he => exact he.budget_lt (s := s.openMicroStep) hp fun hn => hj ⟨hp, hn⟩
  | halted hp => exact absurd (State.budget_eq_zero_of_ended (.inl hp)) hs
  | faulted hp => exact absurd (State.budget_eq_zero_of_ended (.inr hp)) hs

/-- A run in which no jump is taken ends within its budget. -/
theorem run_ends_within_budget {b : Nat} (hs : s.Inv) (hb : s.budget ≤ b)
    (hj : ∀ k t, k < b → run k s = .next t → ¬ t.takesJump) :
    ∃ k t, k ≤ b ∧ run k s = .next t ∧ (t.halted ∨ t.faulted) := by
  induction b generalizing s with
  | zero => exact ⟨0, s, le_rfl, rfl, hs.ended_of_budget_eq_zero (Nat.le_zero.1 hb)⟩
  | succ b ih =>
    by_cases h0 : s.budget = 0
    · exact ⟨0, s, Nat.zero_le _, rfl, hs.ended_of_budget_eq_zero h0⟩
    · obtain ⟨t, h, ht⟩ := hs.exists_step
      have hlt : t.budget < s.budget := (step_next h).budget_lt (hj 0 s (Nat.succ_pos b) rfl) h0
      obtain ⟨k, u, hk, hrun, hu⟩ := ih ht (by omega) fun k u hk hrun =>
        hj (k + 1) u (Nat.succ_lt_succ hk) (by rwa [run_succ_of_step h])
      exact ⟨k + 1, u, Nat.succ_le_succ hk, by rwa [run_succ_of_step h], hu⟩

end Sys2Proof.Machine

namespace Sys2Proof.Proofs
open Sys2Proof.Machine

/-- Settles O56: each row of the table is the sum for the addressing class and the group of its forms. -/
theorem instructionsTakeTheTablesMicroSteps : Obligations.InstructionsTakeTheTablesMicroSteps := by
  refine fun x => ⟨fun c hc => takes_of_microSteps ?_, fun c hc => takes_of_microSteps ?_,
    fun p hp => takes_of_microSteps ?_, fun p hp => takes_of_microSteps ?_, fun p hp => takes_of_microSteps ?_,
    fun p hp => takes_of_microSteps ?_⟩
  · revert c
    simp [indirectMicroSteps, executeMicroSteps, addrClass, execGroup]
  · revert c
    simp [indirectMicroSteps, executeMicroSteps, addrClass, execGroup]
  · revert p
    simp [directArithmetic, directLogic, directDivision, immediateArithmetic, immediateLogic, immediateDivision,
      indirectMicroSteps, executeMicroSteps, addrClass, execGroup]
  · revert p
    simp [indirectArithmetic, indirectLogic, indirectDivision, indirectMicroSteps, executeMicroSteps, addrClass,
      execGroup]
  · revert p
    simp [directConditions, immediateConditions, indirectMicroSteps, executeMicroSteps, addrClass, execGroup]
  · revert p
    simp [indirectConditions, indirectMicroSteps, executeMicroSteps, addrClass, execGroup]

/-- Settles O57: at the beginning of FETCH the budget is 6 for each address from PC on. -/
theorem runWithoutJumpsStops : Obligations.RunWithoutJumpsStops := by
  intro s hs hf hj
  obtain ⟨hp, hu⟩ := hf
  have hpc := hs.pc
  have hb : s.budget = 6 * (s.cfg.n - 1 - s.pc) + 6 := by simp [State.budget, hp, hu]
  exact run_ends_within_budget hs (by omega) hj

end Sys2Proof.Proofs

/-!
PROOFS. 41_data_alu.md R150 to R153: the arithmetic laws as operations on 32-bit words.
-/

namespace Sys2Proof.Machine

theorem zext32_eq (x : Operand24) : zext32 x = BitVec.ofNat 32 x.toNat := (BitVec.ofNat_toNat 32 x).symm

theorem ofNat_toNat_ne_zero {x : Operand24} (hx : x ≠ 0#24) : BitVec.ofNat 32 x.toNat ≠ 0#32 := by
  intro h
  have hlt : x.toNat < 2 ^ 24 := x.isLt
  have h0 : x.toNat % 2 ^ 32 = 0 := congrArg BitVec.toNat h
  exact hx (BitVec.eq_of_toNat_eq (show x.toNat = 0 by omega))

theorem toInt_wrap32 (x : Int) : (wrap32 x).toInt = x.bmod (2 ^ 32) := BitVec.toInt_ofInt x

theorem aluAdd_eq (a b : Word) : aluAdd a b = a + b :=
  BitVec.eq_of_toInt_eq ((toInt_wrap32 _).trans (BitVec.toInt_add a b).symm)

theorem aluSub_eq (a b : Word) : aluSub a b = a - b :=
  BitVec.eq_of_toInt_eq ((toInt_wrap32 _).trans BitVec.toInt_sub.symm)

theorem aluMul_eq (a b : Word) : aluMul a b = a * b :=
  BitVec.eq_of_toInt_eq ((toInt_wrap32 _).trans (BitVec.toInt_mul a b).symm)

theorem aluDiv_eq_sdiv (a b : Word) : aluDiv a b = a.sdiv b :=
  BitVec.eq_of_toInt_eq ((toInt_wrap32 _).trans (BitVec.toInt_sdiv a b).symm)

/-- The dividend less divisor times truncated quotient is the remainder of truncated division (R152). -/
theorem aluMod_eq_narrowed : aluMod = narrowed Int.tmod := by
  funext a b
  rw [aluMod, ← Int.tmod_def]
  rfl

/-- The remainder fits in a word, so narrowing loses nothing. -/
theorem aluMod_eq_srem (a b : Word) : aluMod a b = a.srem b := by
  rw [aluMod_eq_narrowed, narrowed, ← BitVec.toInt_srem, BitVec.ofInt_toInt]

theorem toInt_aluMod (a b : Word) : (aluMod a b).toInt = a.toInt.tmod b.toInt := by
  rw [aluMod_eq_srem, BitVec.toInt_srem]

/-- The one quotient that does not fit in a word (R151): its operands as words. -/
theorem overflow_operands {a b : Word} (h : a.toInt = -2 ^ 31 ∧ b.toInt = -1) :
    a = BitVec.intMin 32 ∧ b = -1#32 :=
  ⟨BitVec.eq_of_toInt_eq h.1, BitVec.eq_of_toInt_eq h.2⟩

theorem toInt_aluDiv {a b : Word} (h : ¬ (a.toInt = -2 ^ 31 ∧ b.toInt = -1)) :
    (aluDiv a b).toInt = a.toInt.tdiv b.toInt := by
  rw [aluDiv_eq_sdiv]
  refine BitVec.toInt_sdiv_of_ne_or_ne a b (not_and_or.1 ?_)
  rintro ⟨rfl, rfl⟩
  exact h ⟨rfl, rfl⟩

/-- The complement as an integer: -ACC - 1 (R153). -/
theorem aluNot_eq (a : Word) : aluNot a = BitVec.ofInt 32 (-a.toInt - 1) := by
  have hw : -a - 1#32 = BitVec.ofInt 32 (-a.toInt - 1) := by
    rw [Int.sub_eq_add_neg, BitVec.ofInt_add, BitVec.ofInt_neg, BitVec.ofInt_toInt, BitVec.sub_eq_add_neg]
    rfl
  exact (BitVec.not_eq_neg_add a).trans hw

end Sys2Proof.Machine

/-!
PROOFS. 41_data_alu.md R154 to R196: the EXECUTE micro-steps of the data instructions, and of the binary ALU forms by
addressing class.
-/

namespace Sys2Proof.Machine
variable {s : State}

theorem exec_load (x : Operand24) (hu : s.uc = 0) (ha : s.ar < s.cfg.n) :
    exec (.load x) s = .next (s.setAcc (s.mem.read s.ar)).advancePC :=
  singleMicroStep_next.2 ⟨hu, loadFromMemory_next.2 ⟨ha, rfl⟩⟩

theorem exec_loadi (x : Operand24) (hu : s.uc = 0) (ha : s.ar < s.cfg.n) :
    exec (.loadi x) s = .next (s.setAcc (s.mem.read s.ar)).advancePC := exec_load x hu ha

theorem exec_loadm (x : Operand24) (hu : s.uc = 0) :
    exec (.loadm x) s = .next (s.setAcc (BitVec.ofNat 32 x.toNat)).advancePC :=
  singleMicroStep_next.2 ⟨hu, by rw [zext32_eq]⟩

theorem exec_store (x : Operand24) (hu : s.uc = 0) (ha : s.ar < s.cfg.n) :
    exec (.store x) s = .next (s.setWord s.ar s.acc).advancePC :=
  singleMicroStep_next.2 ⟨hu, storeToMemory_next.2 ⟨ha, rfl⟩⟩

theorem exec_storei (x : Operand24) (hu : s.uc = 0) (ha : s.ar < s.cfg.n) :
    exec (.storei x) s = .next (s.setWord s.ar s.acc).advancePC := exec_store x hu ha

theorem exec_not (x : Operand24) (hu : s.uc = 0) : exec (.not x) s = .next (s.setAcc (aluNot s.acc)).advancePC :=
  singleMicroStep_next.2 ⟨hu, rfl⟩

/-- The operand micro-step of a binary ALU form of an addressing class (R154). -/
def operandStep : AddrClass → Operand24 → State → Result
  | .immediate, x => operandImmediate x
  | _, _ => operandFromMemory

theorem operandStep_of_ne {c : AddrClass} (hc : c ≠ .immediate) (x : Operand24) :
    operandStep c x = operandFromMemory := by
  cases c with
  | immediate => exact absurd rfl hc
  | _ => rfl

/-- The last micro-step of a binary ALU form of a group (R155, R156). -/
def combineStep : ExecGroup → (Word → Word → Word) → State → Result
  | .divide, f => combineUnlessZero f
  | _, f => combine f

theorem combineStep_eq {g : ExecGroup} (hv : g = .divide → s.vr ≠ 0#32) (f : Word → Word → Word) :
    combineStep g f s = .next (s.setAcc (f s.acc s.vr)).advancePC := by
  cases g with
  | divide => exact combineUnlessZero_next.2 (.inr ⟨hv rfl, rfl⟩)
  | _ => rfl

/-- `p` is a binary ALU form of class `c` and group `g`, with its operation. -/
structure IsAluForm (c : AddrClass) (g : ExecGroup) (p : (Operand24 → Instr) × (Word → Word → Word)) : Prop where
  addrClass_eq (x : Operand24) : addrClass (p.1 x) = c
  execGroup_eq (x : Operand24) : execGroup (p.1 x) = g
  operand_eq (x : Operand24) : (p.1 x).operand = x
  exec_eq (x : Operand24) (s : State) : exec (p.1 x) s = twoMicroSteps s (operandStep c x s) (combineStep g p.2 s)

section
variable {c : AddrClass} {g : ExecGroup} {p : (Operand24 → Instr) × (Word → Word → Word)} {x : Operand24}

/-! The forms listed in `Safety.lean`, by class and group. -/

theorem isAluForm_direct (h : p ∈ directArithmetic ∨ p ∈ directLogic) : IsAluForm .direct .alu p := by
  simp only [directArithmetic, directLogic, List.mem_cons, List.not_mem_nil, or_false] at h
  rcases h with (rfl | rfl | rfl) | rfl | rfl <;> exact ⟨fun _ => rfl, fun _ => rfl, fun _ => rfl, fun _ _ => rfl⟩

theorem isAluForm_indirect (h : p ∈ indirectArithmetic ∨ p ∈ indirectLogic) : IsAluForm .indirect .alu p := by
  simp only [indirectArithmetic, indirectLogic, List.mem_cons, List.not_mem_nil, or_false] at h
  rcases h with (rfl | rfl | rfl) | rfl | rfl <;> exact ⟨fun _ => rfl, fun _ => rfl, fun _ => rfl, fun _ _ => rfl⟩

theorem isAluForm_immediate (h : p ∈ immediateArithmetic ∨ p ∈ immediateLogic) : IsAluForm .immediate .alu p := by
  simp only [immediateArithmetic, immediateLogic, List.mem_cons, List.not_mem_nil, or_false] at h
  rcases h with (rfl | rfl | rfl) | rfl | rfl <;> exact ⟨fun _ => rfl, fun _ => rfl, fun _ => rfl, fun _ _ => rfl⟩

theorem isAluForm_directDivision (h : p ∈ directDivision) : IsAluForm .direct .divide p := by
  simp only [directDivision, ← aluMod_eq_narrowed, List.mem_cons, List.not_mem_nil, or_false] at h
  rcases h with rfl | rfl <;> exact ⟨fun _ => rfl, fun _ => rfl, fun _ => rfl, fun _ _ => rfl⟩

theorem isAluForm_indirectDivision (h : p ∈ indirectDivision) : IsAluForm .indirect .divide p := by
  simp only [indirectDivision, ← aluMod_eq_narrowed, List.mem_cons, List.not_mem_nil, or_false] at h
  rcases h with rfl | rfl <;> exact ⟨fun _ => rfl, fun _ => rfl, fun _ => rfl, fun _ _ => rfl⟩

theorem isAluForm_immediateDivision (h : p ∈ immediateDivision) : IsAluForm .immediate .divide p := by
  simp only [immediateDivision, ← aluMod_eq_narrowed, List.mem_cons, List.not_mem_nil, or_false] at h
  rcases h with rfl | rfl <;> exact ⟨fun _ => rfl, fun _ => rfl, fun _ => rfl, fun _ _ => rfl⟩

namespace IsAluForm

theorem exec_operand_memory (hp : IsAluForm c g p) (hc : c ≠ .immediate) (hu : s.uc = 0) (ha : s.ar < s.cfg.n) :
    exec (p.1 x) s = .next (s.setVr (s.mem.read s.ar)).stayInPhase := by
  rw [hp.exec_eq, operandStep_of_ne hc]
  exact twoMicroSteps_next.2 (.inl ⟨hu, operandFromMemory_next.2 ⟨ha, rfl⟩⟩)

theorem exec_operand_immediate (hp : IsAluForm .immediate g p) (hu : s.uc = 0) :
    exec (p.1 x) s = .next (s.setVr (BitVec.ofNat 32 x.toNat)).stayInPhase := by
  rw [hp.exec_eq, ← zext32_eq]
  exact twoMicroSteps_next.2 (.inl ⟨hu, rfl⟩)

theorem exec_combine (hp : IsAluForm c g p) (hu : s.uc = 1) (hv : g = .divide → s.vr ≠ 0#32) :
    exec (p.1 x) s = .next (s.setAcc (p.2 s.acc s.vr)).advancePC := by
  rw [hp.exec_eq]
  exact twoMicroSteps_next.2 (.inr ⟨hu, combineStep_eq hv p.2⟩)

theorem exec_fault (hp : IsAluForm c .divide p) (hu : s.uc = 1) (hv : s.vr = 0#32) :
    exec (p.1 x) s = .next s.raiseDivideByZero := exec_divide_zero (hp.execGroup_eq x) hu hv

end IsAluForm
end

end Sys2Proof.Machine

/-!
PROOFS. 41_data_alu.md R160 to R196: the data instructions whole, from FETCH to their end, as what they do to the core's
own part of the state.
-/

namespace Sys2Proof.Machine
variable {i : Instr} {s : State} {k a : Nat} {v : Word}

/-- `k` micro-steps from `s` lead to a state whose core part is `A`. -/
def Reaches (k : Nat) (s : State) (A : Arch) : Prop := ∃ t, run k s = .next t ∧ t.arch = A

theorem reaches_of_run {A : Arch} {P : State → Prop} (h : ∃ t, run k s = .next t ∧ t.arch = A ∧ P t) :
    Reaches k s A := by
  obtain ⟨t, hrun, ht, -⟩ := h
  exact ⟨t, hrun, ht⟩

theorem State.fetches.pc_lt (hs : s.fetches i) : s.pc < s.cfg.n := by
  obtain ⟨-, hpc, -⟩ := hs
  exact hpc

theorem State.fetches.directAddress_lt (hs : s.fetches i) (x : Operand24) : s.directAddress x < s.cfg.n :=
  operandMod_lt x (Nat.zero_lt_of_lt hs.pc_lt)

theorem State.fetches.indirectAddress_lt (hs : s.fetches i) (x : Operand24) : s.indirectAddress x < s.cfg.n :=
  wordMod_lt _ (Nat.zero_lt_of_lt hs.pc_lt)

/-! FETCH and INDIRECT by the addressing class, with the address named by the operand itself (R103 to R108). -/

theorem reaches_direct {x : Operand24} (hs : s.fetches i) (hc : addrClass i = .direct) (hx : i.operand = x) :
    Reaches 3 s (s.resolvedAt (s.directAddress x)) := hx ▸ run_fetch_direct hs hc

theorem reaches_indirect {x : Operand24} (hs : s.fetches i) (hc : addrClass i = .indirect) (hx : i.operand = x) :
    Reaches 4 s (s.resolvedAt (s.indirectAddress x)) := hx ▸ run_fetch_indirect hs hc

theorem reaches_noAddress (hs : s.fetches i) (hc : addrClass i = .immediate ∨ addrClass i = .none) :
    Reaches 3 s (s.resolvedAt s.pc) := run_fetch_noAddress hs hc

/-! What the core's own part says of a state, and what the last updates of an instruction make of it. -/

theorem State.ar_lt_of_arch {u : State} (ha : a < s.cfg.n) (hu : u.arch = s.resolvedAt a) : u.ar < u.cfg.n := by
  have har : u.ar = a := congrArg Arch.ar hu
  have hcfg : u.cfg = s.cfg := congrArg Arch.cfg hu
  rwa [har, hcfg]

theorem Arch.advanced_acc (A : Arch) : A.advanced.acc = A.acc := by
  unfold Arch.advanced
  split <;> rfl

theorem State.arch_setAcc_advancePC (s : State) (v : Word) :
    (s.setAcc v).advancePC.arch = { s.arch with acc := v }.advanced := State.arch_advancePC _

theorem State.arch_setWord_advancePC (s : State) (a : Nat) (v : Word) :
    (s.setWord a v).advancePC.arch = { s.arch with mem := s.mem.write a v }.advanced := State.arch_advancePC _

@[simp] theorem State.advancePC_out_acc (s : State) : s.advancePC.out.acc = s.out.acc := by
  rcases s.advancePC_cases with ⟨-, h⟩ | ⟨-, h⟩ <;> simp [h]

theorem State.read_ar_of_arch {u : State} (hu : u.arch = s.resolvedAt a) : u.mem.read u.ar = s.mem.read a :=
  calc u.mem.read u.ar = u.arch.mem.read u.arch.ar := rfl
    _ = s.mem.read a := by rw [hu]; rfl

/-! The EXECUTE micro-steps as a part of the run. -/

/-- An EXECUTE micro-step of the fetched instruction, as it stands in IR: one more micro-step of the run. -/
theorem run_execute {A : Arch} {f : State → State} (hs : s.fetches i) (hcfg : A.cfg = s.cfg)
    (hir : A.ir = s.mem.read s.pc) (hph : A.ph = .execute) (hr : Reaches k s A)
    (hf : ∀ u : State, u.arch = A → exec i u = .next (f u)) :
    ∃ t : State, run (k + 1) s = .next (f t.openMicroStep) ∧ t.arch = A := by
  obtain ⟨t, hrun, rfl⟩ := hr
  have hcur : t.current = i := hs.current_eq hcfg hir
  have hstep : step t = .next (f t.openMicroStep) := by
    rw [step_execute hph, hcur]
    exact hf t.openMicroStep rfl
  exact ⟨t, run_succ_of_run hrun hstep, rfl⟩

/-- An EXECUTE micro-step that writes `v` to ACC and advances ends the instruction, and announces ACC. -/
theorem run_setAcc {A : Arch} (hs : s.fetches i) (hcfg : A.cfg = s.cfg) (hir : A.ir = s.mem.read s.pc)
    (hph : A.ph = .execute) (hr : Reaches k s A)
    (hi : ∀ u : State, u.arch = A → exec i u = .next (u.setAcc v).advancePC) :
    ∃ t, run (k + 1) s = .next t ∧ t.arch = { A with acc := v }.advanced ∧ t.out.acc = some t.acc := by
  obtain ⟨t, hrun, rfl⟩ := run_execute hs hcfg hir hph hr hi
  exact ⟨_, hrun, State.arch_setAcc_advancePC _ v, by simp⟩

/-- A load from memory, whole (R160, R161). -/
theorem run_load (hs : s.fetches i) (ha : a < s.cfg.n) (hr : Reaches k s (s.resolvedAt a))
    (hi : ∀ u : State, u.uc = 0 → u.ar < u.cfg.n → exec i u = .next (u.setAcc (u.mem.read u.ar)).advancePC) :
    Reaches (k + 1) s { s.resolvedAt a with acc := s.mem.read a }.advanced :=
  reaches_of_run (run_setAcc hs rfl rfl rfl hr fun u hu => by
    rw [hi u (congrArg Arch.uc hu) (State.ar_lt_of_arch ha hu), State.read_ar_of_arch hu])

/-- A store into a canonical memory, whole (R170, R171, R52). -/
theorem run_storeForm (hs : s.fetches i) (ha : a < s.cfg.n) (hwf : s.mem.wf) (hr : Reaches k s (s.resolvedAt a))
    (hi : ∀ u : State, u.uc = 0 → u.ar < u.cfg.n → exec i u = .next (u.setWord u.ar u.acc).advancePC) :
    ∃ t, run (k + 1) s = .next t ∧ t.arch = { s.resolvedAt a with mem := t.mem }.advanced ∧
      t.mem.read a = s.acc ∧ (∀ b, b ≠ a → t.mem.read b = s.mem.read b) ∧ t.mem.wf ∧ t.out.mem = some t.mem := by
  obtain ⟨t, hrun, ht⟩ := run_execute (f := fun u => (u.setWord a s.acc).advancePC) hs rfl rfl rfl hr fun u hu => by
    have har : u.ar = a := congrArg Arch.ar hu
    have hacc : u.acc = s.acc := congrArg Arch.acc hu
    rw [hi u (congrArg Arch.uc hu) (State.ar_lt_of_arch ha hu), har, hacc]
  have hmem : (t.openMicroStep.setWord a s.acc).advancePC.mem = s.mem.write a s.acc := by
    have hold : t.mem = s.mem := congrArg Arch.mem ht
    simp [hold]
  refine ⟨_, hrun, ?_, ?_, fun b hb => ?_, ?_, by simp [State.advancePC_out_mem]⟩ <;> rw [hmem]
  · calc (t.openMicroStep.setWord a s.acc).advancePC.arch
        = { t.arch with mem := t.arch.mem.write a s.acc }.advanced := State.arch_setWord_advancePC _ _ _
      _ = _ := by rw [ht]; rfl
  · exact Memory.read_write_same hwf a s.acc
  · exact Memory.read_write_other s.mem hb s.acc
  · exact Memory.write_wf hwf a s.acc

/-! The binary ALU forms: the operand micro-step (R154), then the combine micro-step or the fault (R155, R156). -/

/-- The core's own part between the two EXECUTE micro-steps of a binary ALU form: the operand is in VR. -/
def State.operandLoaded (s : State) (a : Nat) (v : Word) : Arch := { s.resolvedAt a with vr := v, uc := 1 }

/-- The `k`-th micro-step from `s` puts the operand `v`, found by way of address `a`, into VR and announces it. -/
def LoadsOperand (k : Nat) (s : State) (a : Nat) (v : Word) : Prop :=
  ∃ t, run k s = .next t ∧ t.arch = s.operandLoaded a v ∧ t.out.vr = some v

theorem LoadsOperand.reaches (h : LoadsOperand k s a v) : Reaches k s (s.operandLoaded a v) := reaches_of_run h

theorem LoadsOperand.announced (h : LoadsOperand k s a v) :
    ∃ u, run k s = .next u ∧ u.out.vr = some v ∧ u.pc = s.pc := by
  obtain ⟨u, hrun, hu, hout⟩ := h
  exact ⟨u, hrun, hout, congrArg Arch.pc hu⟩

/-- An EXECUTE micro-step that writes `v` to VR and stays in EXECUTE. -/
theorem run_setVr (hs : s.fetches i) (hr : Reaches k s (s.resolvedAt a))
    (hi : ∀ u : State, u.arch = s.resolvedAt a → exec i u = .next (u.setVr v).stayInPhase) :
    LoadsOperand (k + 1) s a v := by
  obtain ⟨t, hrun, ht⟩ := run_execute hs rfl rfl rfl hr hi
  refine ⟨_, hrun, ?_, rfl⟩
  calc (t.openMicroStep.setVr v).stayInPhase.arch = { t.arch with vr := v, uc := 1 } := rfl
    _ = s.operandLoaded a v := by rw [ht]; rfl

section
variable {c : AddrClass} {g : ExecGroup} {p : (Operand24 → Instr) × (Word → Word → Word)} {x : Operand24}

theorem loadsOperand_memory (hp : IsAluForm c g p) (hc : c ≠ .immediate) (hs : s.fetches (p.1 x))
    (ha : a < s.cfg.n) (hr : Reaches k s (s.resolvedAt a)) : LoadsOperand (k + 1) s a (s.mem.read a) :=
  run_setVr hs hr fun u hu => by
    rw [hp.exec_operand_memory hc (congrArg Arch.uc hu) (State.ar_lt_of_arch ha hu), State.read_ar_of_arch hu]

theorem loadsOperand_direct (hp : IsAluForm .direct g p) (hs : s.fetches (p.1 x)) :
    LoadsOperand 4 s (s.directAddress x) (s.mem.read (s.directAddress x)) :=
  loadsOperand_memory hp nofun hs (hs.directAddress_lt x)
    (reaches_direct hs (hp.addrClass_eq x) (hp.operand_eq x))

theorem loadsOperand_indirect (hp : IsAluForm .indirect g p) (hs : s.fetches (p.1 x)) :
    LoadsOperand 5 s (s.indirectAddress x) (s.mem.read (s.indirectAddress x)) :=
  loadsOperand_memory hp nofun hs (hs.indirectAddress_lt x)
    (reaches_indirect hs (hp.addrClass_eq x) (hp.operand_eq x))

theorem loadsOperand_immediate (hp : IsAluForm .immediate g p) (hs : s.fetches (p.1 x)) :
    LoadsOperand 4 s s.pc (BitVec.ofNat 32 x.toNat) :=
  run_setVr hs (reaches_noAddress hs (.inl (hp.addrClass_eq x))) fun _ hu =>
    hp.exec_operand_immediate (congrArg Arch.uc hu)

/-- A binary ALU form whose last micro-step combines, whole (R155); that micro-step announces ACC. -/
theorem run_combine (hp : IsAluForm c g p) (hs : s.fetches (p.1 x)) (h : LoadsOperand k s a v)
    (hv : g = .divide → v ≠ 0#32) :
    ∃ t, run (k + 1) s = .next t ∧
      t.arch = { s.resolvedAt a with vr := v, acc := p.2 s.acc v }.advanced ∧ t.out.acc = some t.acc :=
  run_setAcc (A := s.operandLoaded a v) hs rfl rfl rfl h.reaches fun u hu => by
    have hvr : u.vr = v := congrArg Arch.vr hu
    have hacc : u.acc = s.acc := congrArg Arch.acc hu
    rw [hp.exec_combine (congrArg Arch.uc hu) (hvr ▸ hv), hvr, hacc]

/-- A DIV or MOD form with a divisor of zero, whole (R156): the fault takes the place of the combine micro-step. -/
theorem run_fault (hp : IsAluForm c .divide p) (hs : s.fetches (p.1 x)) (h : LoadsOperand k s a 0#32) :
    ∃ t, run (k + 1) s = .next t ∧
      t.arch = { s.resolvedAt a with vr := 0, ph := .error, flt := .divideByZero } ∧
      t.out.result = .errorDivideByZero ∧ t.out.acc = none := by
  obtain ⟨t, hrun, ht⟩ := run_execute (f := State.raiseDivideByZero) hs rfl rfl rfl h.reaches
    fun u hu => hp.exec_fault (congrArg Arch.uc hu) (congrArg Arch.vr hu)
  refine ⟨_, hrun, ?_, rfl, rfl⟩
  calc t.openMicroStep.raiseDivideByZero.arch
      = { t.arch with flt := .divideByZero, ph := .error, uc := 0 } := rfl
    _ = _ := by rw [ht]; rfl

end

end Sys2Proof.Machine

namespace Sys2Proof.Proofs
open Sys2Proof.Machine

/-- Settles O8: the three are the word operations, and narrowing wraps. -/
theorem sumsAndProductsWrap : Obligations.SumsAndProductsWrap := fun a b =>
  ⟨⟨aluAdd_eq a b, toInt_wrap32 _⟩, ⟨aluSub_eq a b, toInt_wrap32 _⟩, ⟨aluMul_eq a b, toInt_wrap32 _⟩⟩

/-- Settles O9: DIV and MOD are the signed division of words, whose remainder always fits and whose quotient fits but
for -2^31 / -1. -/
theorem quotientTruncatesAndRemainderFollowsDividend : Obligations.QuotientTruncatesAndRemainderFollowsDividend := by
  intro a b hb
  have hpos : 0 < b.toInt.natAbs := Int.natAbs_pos.2 fun h => hb (BitVec.eq_of_toInt_eq h)
  rw [toInt_aluMod]
  refine ⟨toInt_aluDiv, fun h => ?_, Int.tmod_def _ _, ?_, Int.tmod_nonneg _, fun ha => ?_⟩
  · obtain ⟨rfl, rfl⟩ := overflow_operands h
    decide
  · rw [Int.natAbs_tmod]
    exact Nat.mod_lt _ hpos
  · have h := Int.tmod_nonneg b.toInt (Int.neg_nonneg.2 ha)
    rw [Int.neg_tmod] at h
    omega

/-- Settles O23: the one micro-step of each, its updates written out. -/
theorem loadsAndNotWriteTheAccumulator : Obligations.LoadsAndNotWriteTheAccumulator := by
  intro x s hu
  refine ⟨fun c hc ha => ?_, exec_loadm x hu, ?_⟩
  · fin_cases hc
    · exact exec_load x hu ha
    · exact exec_loadi x hu ha
  · rw [exec_not x hu, aluNot_eq]
    rfl

/-- Settles O24: both write the canonical memory at AR. -/
theorem storesWriteTheWordAtAr : Obligations.StoresWriteTheWordAtAr := by
  intro x s hu ha hwf c hc
  refine ⟨s.mem.write s.ar s.acc, ?_, Memory.write_wf hwf _ _, Memory.read_write_same hwf _ _,
    fun _ hne => Memory.read_write_other _ hne _⟩
  fin_cases hc
  · exact exec_store x hu ha
  · exact exec_storei x hu ha

/-- Settles O25: the operand micro-step goes by the addressing class alone. -/
theorem operandMicroStepLoadsTheValueRegister : Obligations.OperandMicroStepLoadsTheValueRegister := by
  intro x s hu
  refine ⟨fun p hp ha => ?_, fun p hp => ?_⟩
  · simp only [List.mem_append, or_assoc] at hp
    rcases hp with h | h | h | h | h | h
    · exact (isAluForm_direct (.inl h)).exec_operand_memory nofun hu ha
    · exact (isAluForm_direct (.inr h)).exec_operand_memory nofun hu ha
    · exact (isAluForm_directDivision h).exec_operand_memory nofun hu ha
    · exact (isAluForm_indirect (.inl h)).exec_operand_memory nofun hu ha
    · exact (isAluForm_indirect (.inr h)).exec_operand_memory nofun hu ha
    · exact (isAluForm_indirectDivision h).exec_operand_memory nofun hu ha
  · rw [List.mem_append, List.mem_append] at hp
    rcases hp with h | h
    · exact (isAluForm_immediate h).exec_operand_immediate hu
    · exact (isAluForm_immediateDivision h).exec_operand_immediate hu

/-- Settles O26: the combine micro-step goes by the group alone, whatever the addressing class. -/
theorem combineMicroStepWritesTheAccumulator : Obligations.CombineMicroStepWritesTheAccumulator := by
  intro x s hu
  refine ⟨fun p hp => ?_, fun p hp => ?_⟩
  · simp only [List.mem_append, or_assoc] at hp
    rcases hp with h | h | h | h | h | h
    · exact (isAluForm_direct (.inl h)).exec_combine hu nofun
    · exact (isAluForm_indirect (.inl h)).exec_combine hu nofun
    · exact (isAluForm_immediate (.inl h)).exec_combine hu nofun
    · exact (isAluForm_direct (.inr h)).exec_combine hu nofun
    · exact (isAluForm_indirect (.inr h)).exec_combine hu nofun
    · exact (isAluForm_immediate (.inr h)).exec_combine hu nofun
  · have hform : ∃ c, IsAluForm c .divide p := by
      simp only [List.mem_append, or_assoc] at hp
      rcases hp with h | h | h
      · exact ⟨_, isAluForm_directDivision h⟩
      · exact ⟨_, isAluForm_indirectDivision h⟩
      · exact ⟨_, isAluForm_immediateDivision h⟩
    obtain ⟨c, hform⟩ := hform
    exact ⟨fun hv => hform.exec_combine hu fun _ => hv,
      fun hv => ⟨_, hform.exec_fault hu hv, rfl, rfl, rfl, rfl, rfl, rfl⟩⟩

/-- Settles O33: after INDIRECT, the one EXECUTE micro-step of each. -/
theorem loadInstructionsLoad : Obligations.LoadInstructionsLoad := by
  intro x s
  refine ⟨fun hs => ?_, fun hs => ?_, fun hs => ?_⟩
  · exact run_load hs (hs.directAddress_lt x) (reaches_direct hs rfl rfl) fun _ => exec_load x
  · exact run_load hs (hs.indirectAddress_lt x) (reaches_indirect hs rfl rfl) fun _ => exec_loadi x
  · exact reaches_of_run (run_setAcc hs rfl rfl rfl (reaches_noAddress hs (.inl rfl)) fun _ hu =>
      exec_loadm x (congrArg Arch.uc hu))

/-- Settles O34: after INDIRECT, the store at AR into a canonical memory. -/
theorem storeInstructionsStore : Obligations.StoreInstructionsStore := by
  intro x s hwf
  refine ⟨fun hs => ?_, fun hs => ?_⟩
  · exact run_storeForm hs (hs.directAddress_lt x) hwf (reaches_direct hs rfl rfl) fun _ => exec_store x
  · exact run_storeForm hs (hs.indirectAddress_lt x) hwf (reaches_indirect hs rfl rfl) fun _ => exec_storei x

/-- Settles O35: the operand micro-step is the fourth, the combine micro-step the fifth. -/
theorem directAndImmediateArithmeticComputes : Obligations.DirectAndImmediateArithmeticComputes := by
  intro x s
  refine ⟨fun p hp hs => ?_, fun p hp hs => ?_⟩
  · have hform := isAluForm_direct (.inl hp)
    have hload := loadsOperand_direct hform hs
    exact ⟨hload.announced, run_combine hform hs hload nofun⟩
  · have hform := isAluForm_immediate (.inl hp)
    have hload := loadsOperand_immediate hform hs
    exact ⟨hload.announced, run_combine hform hs hload nofun⟩

/-- Settles O36: the operand is resolved by the addressing class, then combined. -/
theorem indirectArithmeticAndLogicCompute : Obligations.IndirectArithmeticAndLogicCompute := by
  intro x s
  refine ⟨fun p hp hs => ?_, fun p hp hs => ?_, fun p hp hs => ?_⟩
  · have hform := isAluForm_indirect (List.mem_append.1 hp)
    exact reaches_of_run (run_combine hform hs (loadsOperand_indirect hform hs) nofun)
  · have hform := isAluForm_direct (.inr hp)
    exact reaches_of_run (run_combine hform hs (loadsOperand_direct hform hs) nofun)
  · have hform := isAluForm_immediate (.inr hp)
    exact reaches_of_run (run_combine hform hs (loadsOperand_immediate hform hs) nofun)

/-- Settles O37: with a divisor other than zero the last micro-step combines. -/
theorem divisionInstructionsDivide : Obligations.DivisionInstructionsDivide := by
  intro x s
  refine ⟨fun p hp hs hv => ?_, fun p hp hs hv => ?_, fun p hp hs hx => ?_⟩
  · have hform := isAluForm_directDivision hp
    exact reaches_of_run (run_combine hform hs (loadsOperand_direct hform hs) fun _ => hv)
  · have hform := isAluForm_indirectDivision hp
    exact reaches_of_run (run_combine hform hs (loadsOperand_indirect hform hs) fun _ => hv)
  · have hform := isAluForm_immediateDivision hp
    exact reaches_of_run (run_combine hform hs (loadsOperand_immediate hform hs) fun _ => ofNat_toNat_ne_zero hx)

/-- Settles O38: with a divisor of zero the last micro-step is the fault. -/
theorem divisionByZeroFaults : Obligations.DivisionByZeroFaults := by
  intro x s
  refine ⟨fun p hp hs hv => ?_, fun p hp hs hv => ?_, fun p hp hs => ?_⟩
  · have hform := isAluForm_directDivision hp
    exact run_fault hform hs (hv ▸ loadsOperand_direct hform hs)
  · have hform := isAluForm_indirectDivision hp
    exact run_fault hform hs (hv ▸ loadsOperand_indirect hform hs)
  · have hform := isAluForm_immediateDivision hp
    exact run_fault hform hs (loadsOperand_immediate hform hs)

/-- Settles O39: -ACC - 1 is the bitwise complement. -/
theorem notInstructionComplements : Obligations.NotInstructionComplements := by
  intro x s hs
  have hr := reaches_noAddress hs (.inr rfl)
  have hi (u : State) (hu : u.arch = s.resolvedAt s.pc) :
      exec (.not x) u = .next (u.setAcc (aluNot s.acc)).advancePC := by
    have hacc : u.acc = s.acc := congrArg Arch.acc hu
    rw [exec_not x (congrArg Arch.uc hu), hacc]
  obtain ⟨t, hrun, ht, hout⟩ := run_setAcc hs rfl rfl rfl hr hi
  have hacc : t.acc = aluNot s.acc := (congrArg Arch.acc ht).trans (Arch.advanced_acc _)
  refine ⟨t, hrun, ?_, hout, fun k hk => ?_⟩
  · rw [← aluNot_eq]
    exact ht
  · rw [hacc, aluNot, BitVec.getLsbD_not, decide_eq_true hk, Bool.true_and]

end Sys2Proof.Proofs

/-!
PROOFS. 42_control_flow.md R200 to R204: the target of a jump by its addressing class, and the EXECUTE micro-steps of the
unconditional and of the conditional jumps.
-/

namespace Sys2Proof.Machine
variable {s : State}

/-- The target of a jump of an addressing class (R200), with the address that INDIRECT resolves for it. -/
def State.jumpTarget (s : State) (c : AddrClass) (x : Operand24) (a : Nat) : Nat :=
  match c with
  | .immediate => s.directAddress x
  | _ => s.targetAt a

/-- The target reads the parameters and memory alone. -/
theorem State.jumpTarget_congr {u : State} (hcfg : u.cfg = s.cfg) (hmem : u.mem = s.mem) (c : AddrClass)
    (x : Operand24) (a : Nat) : u.jumpTarget c x a = s.jumpTarget c x a := by
  cases c with
  | immediate => simp only [jumpTarget, directAddress, hcfg]
  | direct | indirect | none => simp only [jumpTarget, targetAt, hcfg, hmem]

/-- The micro-step of the unconditional jumps (R204). -/
theorem exec_jump {i : Instr} {x : Operand24} (hi : i = .jmp x ∨ i = .jmpi x ∨ i = .jmpm x) (hu : s.uc = 0)
    (ha : addrClass i ≠ .immediate → s.ar < s.cfg.n) :
    exec i s = .next (s.jumpTo (s.jumpTarget (addrClass i) x s.ar)) := by
  rcases hi with rfl | rfl | rfl
  · exact singleMicroStep_next.2 ⟨hu, withTargetFromMemory_next.2 ⟨ha nofun, rfl⟩⟩
  · exact singleMicroStep_next.2 ⟨hu, withTargetFromMemory_next.2 ⟨ha nofun, rfl⟩⟩
  · exact singleMicroStep_next.2 ⟨hu, rfl⟩

/-- The resolution micro-step of a conditional jump of an addressing class (R203). -/
def resolveStep : AddrClass → Operand24 → State → Result
  | .immediate, x => resolveImmediate x
  | _, _ => resolveFromMemory

theorem resolveStep_taken {c : AddrClass} (x : Operand24) (hj : s.jf = true)
    (ha : c ≠ .immediate → s.ar < s.cfg.n) :
    resolveStep c x s = .next (s.takeJump (s.jumpTarget c x s.ar)) := by
  cases c with
  | immediate => exact resolveImmediate_next.2 (.inl ⟨hj, rfl⟩)
  | direct | indirect | none => exact resolveFromMemory_next.2 (.inl ⟨hj, ha nofun, rfl⟩)

theorem resolveStep_untaken (c : AddrClass) (x : Operand24) (hj : s.jf = false) :
    resolveStep c x s = .next s.advancePC := by
  cases c with
  | immediate => exact resolveImmediate_next.2 (.inr ⟨hj, rfl⟩)
  | direct | indirect | none => exact resolveFromMemory_next.2 (.inr ⟨hj, rfl⟩)

/-- `p` is a conditional jump of class `c`, with its predicate on the signed accumulator (R201). -/
structure IsCondForm (c : AddrClass) (p : (Operand24 → Instr) × (Int → Bool)) : Prop where
  addrClass_eq (x : Operand24) : addrClass (p.1 x) = c
  operand_eq (x : Operand24) : (p.1 x).operand = x
  exec_eq (x : Operand24) (s : State) :
    exec (p.1 x) s = twoMicroSteps s (.next (s.setJf (p.2 s.acc.toInt)).stayInPhase) (resolveStep c x s)

section
variable {c : AddrClass} {p : (Operand24 → Instr) × (Int → Bool)} {x : Operand24}

theorem isCondForm_direct (h : p ∈ directConditions) : IsCondForm .direct p := by
  simp only [directConditions, List.mem_cons, List.not_mem_nil, or_false] at h
  rcases h with rfl | rfl | rfl | rfl | rfl | rfl <;> exact ⟨fun _ => rfl, fun _ => rfl, fun _ _ => rfl⟩

theorem isCondForm_indirect (h : p ∈ indirectConditions) : IsCondForm .indirect p := by
  simp only [indirectConditions, List.mem_cons, List.not_mem_nil, or_false] at h
  rcases h with rfl | rfl | rfl | rfl | rfl | rfl <;> exact ⟨fun _ => rfl, fun _ => rfl, fun _ _ => rfl⟩

theorem isCondForm_immediate (h : p ∈ immediateConditions) : IsCondForm .immediate p := by
  simp only [immediateConditions, List.mem_cons, List.not_mem_nil, or_false] at h
  rcases h with rfl | rfl | rfl | rfl | rfl | rfl <;> exact ⟨fun _ => rfl, fun _ => rfl, fun _ _ => rfl⟩

/-- The 18 conditional jumps, whatever their class. -/
theorem exists_isCondForm (h : p ∈ directConditions ++ indirectConditions ++ immediateConditions) :
    ∃ c, IsCondForm c p := by
  simp only [List.mem_append, or_assoc] at h
  rcases h with h | h | h
  · exact ⟨_, isCondForm_direct h⟩
  · exact ⟨_, isCondForm_indirect h⟩
  · exact ⟨_, isCondForm_immediate h⟩

namespace IsCondForm

theorem exec_test (hp : IsCondForm c p) (hu : s.uc = 0) :
    exec (p.1 x) s = .next (s.setJf (p.2 s.acc.toInt)).stayInPhase := by
  rw [hp.exec_eq]
  exact twoMicroSteps_next.2 (.inl ⟨hu, rfl⟩)

theorem exec_taken (hp : IsCondForm c p) (hu : s.uc = 1) (hj : s.jf = true)
    (ha : c ≠ .immediate → s.ar < s.cfg.n) :
    exec (p.1 x) s = .next (s.takeJump (s.jumpTarget c x s.ar)) := by
  rw [hp.exec_eq]
  exact twoMicroSteps_next.2 (.inr ⟨hu, resolveStep_taken x hj ha⟩)

theorem exec_untaken (hp : IsCondForm c p) (hu : s.uc = 1) (hj : s.jf = false) :
    exec (p.1 x) s = .next s.advancePC := by
  rw [hp.exec_eq]
  exact twoMicroSteps_next.2 (.inr ⟨hu, resolveStep_untaken c x hj⟩)

end IsCondForm
end

end Sys2Proof.Machine

/-!
PROOFS. 42_control_flow.md R205 to R227: the jumps whole, from FETCH to their end, as what they do to the core's own part
of the state.
-/

namespace Sys2Proof.Machine
variable {i : Instr} {s : State} {k a : Nat} {x : Operand24}

/-- An EXECUTE micro-step `f` whose effect on the core's own part is `g`: one more micro-step of the run. -/
theorem reaches_execute {A : Arch} {f : State → State} {g : Arch → Arch} (hs : s.fetches i) (hcfg : A.cfg = s.cfg)
    (hir : A.ir = s.mem.read s.pc) (hph : A.ph = .execute) (hr : Reaches k s A)
    (hf : ∀ u : State, u.arch = A → exec i u = .next (f u)) (hfg : ∀ u : State, (f u).arch = g u.arch) :
    Reaches (k + 1) s (g A) := by
  obtain ⟨t, hrun, rfl⟩ := run_execute hs hcfg hir hph hr hf
  exact ⟨_, hrun, hfg t.openMicroStep⟩

/-- A jump to `b`, as the core's own part sees it (R204). -/
def Arch.jumpedTo (b : Nat) (A : Arch) : Arch := { A with pc := b, ph := .fetch, uc := 0 }

theorem State.arch_jumpTo (s : State) (b : Nat) : (s.jumpTo b).arch = s.arch.jumpedTo b := rfl

/-- A taken conditional jump to `b` also clears JF (R203). -/
def Arch.branchedTo (b : Nat) (A : Arch) : Arch := { A with pc := b, jf := false, ph := .fetch, uc := 0 }

theorem State.arch_takeJump (s : State) (b : Nat) : (s.takeJump b).arch = s.arch.branchedTo b := rfl

/-- An unconditional jump, whole (R205 to R207): its one EXECUTE micro-step goes to the target. -/
theorem run_jump (hi : i = .jmp x ∨ i = .jmpi x ∨ i = .jmpm x) (hs : s.fetches i) (ha : a < s.cfg.n)
    (hr : Reaches k s (s.resolvedAt a)) :
    Reaches (k + 1) s ((s.resolvedAt a).jumpedTo (s.jumpTarget (addrClass i) x a)) := by
  refine reaches_execute hs rfl rfl rfl hr (fun u hu => ?_) fun u => u.arch_jumpTo _
  have har : u.ar = a := congrArg Arch.ar hu
  rw [exec_jump hi (congrArg Arch.uc hu) fun _ => State.ar_lt_of_arch ha hu, har,
    State.jumpTarget_congr (congrArg Arch.cfg hu) (congrArg Arch.mem hu)]

/-- The core's own part between the two EXECUTE micro-steps of a conditional jump: the test's answer is in JF. -/
def State.flagTested (s : State) (a : Nat) (b : Bool) : Arch := { s.resolvedAt a with jf := b, uc := 1 }

section
variable {c : AddrClass} {p : (Operand24 → Instr) × (Int → Bool)}

/-- The test micro-step (R202). -/
theorem run_test (hp : IsCondForm c p) (hs : s.fetches (p.1 x)) (hr : Reaches k s (s.resolvedAt a)) :
    Reaches (k + 1) s (s.flagTested a (p.2 s.acc.toInt)) := by
  refine reaches_execute (f := fun u => (u.setJf (p.2 s.acc.toInt)).stayInPhase)
    (g := fun A => { A with jf := p.2 s.acc.toInt, uc := 1 }) hs rfl rfl rfl hr (fun u hu => ?_) fun _ => rfl
  have hacc : u.acc = s.acc := congrArg Arch.acc hu
  rw [hp.exec_test (congrArg Arch.uc hu), hacc]

/-- The resolution micro-step with JF set (R203). -/
theorem run_taken (hp : IsCondForm c p) (hs : s.fetches (p.1 x)) (ha : a < s.cfg.n)
    (hr : Reaches k s (s.flagTested a true)) :
    Reaches (k + 1) s ((s.resolvedAt a).branchedTo (s.jumpTarget c x a)) := by
  refine reaches_execute (A := s.flagTested a true) (f := fun u => u.takeJump (s.jumpTarget c x a)) hs rfl rfl rfl hr
    (fun u hu => ?_) fun u => u.arch_takeJump _
  have hcfg : u.cfg = s.cfg := congrArg Arch.cfg hu
  have har : u.ar = a := congrArg Arch.ar hu
  rw [hp.exec_taken (congrArg Arch.uc hu) (congrArg Arch.jf hu) fun _ => by rwa [har, hcfg], har,
    State.jumpTarget_congr hcfg (congrArg Arch.mem hu)]

/-- The resolution micro-step with JF clear (R203). -/
theorem run_untaken (hp : IsCondForm c p) (hs : s.fetches (p.1 x)) (hr : Reaches k s (s.flagTested a false)) :
    Reaches (k + 1) s { s.resolvedAt a with jf := false }.advanced :=
  reaches_execute (A := s.flagTested a false) hs rfl rfl rfl hr
    (fun _ hu => hp.exec_untaken (congrArg Arch.uc hu) (congrArg Arch.jf hu)) State.arch_advancePC

/-- A conditional jump, whole (R210 to R227): the test, then the resolution that its answer selects. -/
theorem run_condJump (hp : IsCondForm c p) (hs : s.fetches (p.1 x)) (ha : a < s.cfg.n)
    (hr : Reaches k s (s.resolvedAt a)) :
    Reaches (k + 2) s (if p.2 s.acc.toInt then (s.resolvedAt a).branchedTo (s.jumpTarget c x a)
      else { s.resolvedAt a with jf := false }.advanced) := by
  have htest := run_test hp hs hr
  cases hb : p.2 s.acc.toInt with
  | true => exact run_taken hp hs ha (hb ▸ htest)
  | false => exact run_untaken hp hs (hb ▸ htest)

end

end Sys2Proof.Machine

namespace Sys2Proof.Proofs
open Sys2Proof.Machine

/-- Settles O28: the one micro-step of each, its updates written out. -/
theorem unconditionalJumpsWritePc : Obligations.UnconditionalJumpsWritePc := by
  intro x s hu
  refine ⟨fun c hc ha => ?_, exec_jump (.inr (.inr rfl)) hu (absurd rfl)⟩
  fin_cases hc
  · exact exec_jump (.inl rfl) hu fun _ => ha
  · exact exec_jump (.inr (.inl rfl)) hu fun _ => ha

/-- Settles O29: the test micro-step is the same for every class. -/
theorem conditionalJumpsTestTheAccumulator : Obligations.ConditionalJumpsTestTheAccumulator := by
  intro x s hu p hp
  obtain ⟨c, hform⟩ := exists_isCondForm hp
  exact hform.exec_test hu

/-- Settles O30: JF selects the jump or the advance, the addressing class the target. -/
theorem conditionalJumpsResolveByTheFlag : Obligations.ConditionalJumpsResolveByTheFlag := by
  intro x s hu
  refine ⟨fun p hp hj => ?_, fun p hp hj ha => ?_, fun p hp hj => ?_⟩
  · obtain ⟨c, hform⟩ := exists_isCondForm hp
    exact hform.exec_untaken hu hj
  · rcases List.mem_append.1 hp with h | h
    · exact (isCondForm_direct h).exec_taken hu hj fun _ => ha
    · exact (isCondForm_indirect h).exec_taken hu hj fun _ => ha
  · exact (isCondForm_immediate hp).exec_taken hu hj (absurd rfl)

/-- Settles O40: after INDIRECT, the one EXECUTE micro-step of each. -/
theorem jumpInstructionsJump : Obligations.JumpInstructionsJump := by
  intro x s
  refine ⟨fun hs => ?_, fun hs => ?_, fun hs => ?_⟩
  · exact run_jump (.inl rfl) hs (hs.directAddress_lt x) (reaches_direct hs rfl rfl)
  · exact run_jump (.inr (.inl rfl)) hs (hs.indirectAddress_lt x) (reaches_indirect hs rfl rfl)
  · exact run_jump (.inr (.inr rfl)) hs hs.pc_lt (reaches_noAddress hs (.inl rfl))

/-- Settles O41: after INDIRECT, the test and the resolution of each class. -/
theorem conditionalJumpInstructionsBranch : Obligations.ConditionalJumpInstructionsBranch := by
  intro x s
  refine ⟨fun p hp hs => ?_, fun p hp hs => ?_, fun p hp hs => ?_⟩
  · have hform := isCondForm_direct hp
    exact run_condJump hform hs (hs.directAddress_lt x)
      (reaches_direct hs (hform.addrClass_eq x) (hform.operand_eq x))
  · have hform := isCondForm_indirect hp
    exact run_condJump hform hs (hs.indirectAddress_lt x)
      (reaches_indirect hs (hform.addrClass_eq x) (hform.operand_eq x))
  · have hform := isCondForm_immediate hp
    exact run_condJump hform hs hs.pc_lt (reaches_noAddress hs (.inl (hform.addrClass_eq x)))

end Sys2Proof.Proofs

/-!
PROOFS. 60_exceptions.md R301 to R303: the divide-by-zero fault.
-/

namespace Sys2Proof.Machine

/-- The DIV and MOD forms make up the one group whose combine micro-step can fault (R156, R301). -/
theorem execGroup_division {c : Operand24 → Instr}
    (h : c ∈ [Instr.div, Instr.divi, Instr.divm, Instr.mod, Instr.modi, Instr.modm]) (x : Operand24) :
    execGroup (c x) = .divide := by
  simp only [List.mem_cons, List.not_mem_nil, or_false] at h
  rcases h with rfl | rfl | rfl | rfl | rfl | rfl <;> rfl

end Sys2Proof.Machine

namespace Sys2Proof.Proofs
open Sys2Proof.Machine

/-- Settles O27: the fault goes by the group alone, and writes only what R302 names. -/
theorem divideByZeroEntersTheErrorPhase : Obligations.DivideByZeroEntersTheErrorPhase :=
  fun x _ hu hv _ hc => exec_divide_zero (execGroup_division hc x) hu hv

end Sys2Proof.Proofs

/-!
PROOFS. 70_reset_and_hazards.md R350 to R354: `reset()`, `loadMemory`, the queries, and building the core.
-/

namespace Sys2Proof.Machine

section
variable {s t : State} {words : List Word} {c : Config}

/-- R351: what `reset()` leaves depends on the configuration and the drawn texts alone, and it keeps both. -/
theorem State.hostReset_hostReset (s : State) : s.hostReset.hostReset = s.hostReset := rfl

/-- What `loadMemory` leaves when the image has the right length (R352). -/
def State.withImage (words : List Word) (s : State) : State :=
  { s with mem := Memory.ofWords 0 words, out := { Output.silent with mem := some (Memory.ofWords 0 words) } }

theorem loadMemory_of_length (h : words.length = s.cfg.n) : loadMemory words s = .next (s.withImage words) := if_pos h

theorem loadMemory_of_length_ne (h : words.length ≠ s.cfg.n) :
    loadMemory words s = .refused (.imageLength words.length) := if_neg h

theorem loadMemory_next : loadMemory words s = .next t ↔ words.length = s.cfg.n ∧ t = s.withImage words := by
  by_cases h : words.length = s.cfg.n
  · simp [loadMemory_of_length h, h, eq_comm]
  · simp [loadMemory_of_length_ne h, h]

/-- R353: a loaded image is what `getMemory` answers. -/
theorem State.getMemory_withImage (h : words.length = s.cfg.n) : (s.withImage words).getMemory = words := by
  refine List.ext_getElem (by simp [State.getMemory, State.withImage, h]) fun k _ hk => ?_
  have hread : (Memory.ofWords 0 words).read k = words[k] := by
    simpa [hk] using Memory.read_ofWords 0 words k
  simpa [State.getMemory, State.withImage] using hread

/-- The invariant asks of memory only its canonical form and its range, and nothing of the notifications. -/
theorem State.Inv.replaceMemory {m : Memory} (hs : s.Inv) (hwf : m.wf) (hb : m.bounded s.cfg.n) (o : Output) :
    ({ s with mem := m, out := o } : State).Inv :=
  ⟨hs.cfg, hwf, hb, hs.pc, hs.ar, hs.pair, hs.jf, hs.flt, hs.cause⟩

theorem State.Inv.withImage (hs : s.Inv) (h : words.length = s.cfg.n) : (s.withImage words).Inv :=
  hs.replaceMemory (Memory.ofWords_wf 0 words) (h ▸ Memory.ofWords_bounded words) _

/-- The core as it is built (R354): the reset state of R34, with nothing announced. -/
def State.built (c : Config) : State := { State.resetOf c 0 with out := Output.silent }

theorem construct_of_problem {p : ConfigProblem} (h : c.problem = some p) : construct c = .refused (.badConfig p) := by
  simp [construct, h]

theorem construct_of_wf (h : c.wf) : construct c = .next (State.built c) := by
  simp [construct, c.problem_eq_none_iff.2 h, State.built]

/-- A core is built exactly with the configurations of R6 and R8. -/
theorem construct_next : construct c = .next t ↔ c.wf ∧ t = State.built c := by
  cases hp : c.problem with
  | none =>
    have hwf : c.wf := c.problem_eq_none_iff.1 hp
    rw [construct_of_wf hwf, Host.Outcome.next.injEq, eq_comm, and_iff_right hwf]
  | some p =>
    have hwf : ¬ c.wf := fun h => by simp [c.problem_eq_none_iff.2 h] at hp
    rw [construct_of_problem hp]
    exact ⟨nofun, fun h => absurd h.1 hwf⟩

theorem State.built_inv (h : c.wf) : (State.built c).Inv :=
  have hreset := State.resetOf_inv h 0
  hreset.replaceMemory hreset.memWf hreset.memBounded _

end

end Sys2Proof.Machine

namespace Sys2Proof.Proofs
open Sys2Proof.Machine

/-- Settles O13: the length alone decides, and a loaded image reads back as its words. -/
theorem loadMemoryReplacesMemory : Obligations.LoadMemoryReplacesMemory := fun s words =>
  ⟨fun h => ⟨s.withImage words, loadMemory_of_length h, State.getMemory_withImage h, rfl, Memory.ofWords_wf 0 words,
    rfl, rfl, rfl⟩, loadMemory_of_length_ne⟩

/-- Settles O46: `reset()` and construction by the reset values' invariant, `loadMemory` by the image's canonical form
and range. -/
theorem hostOperationsKeepTheInvariant : Obligations.HostOperationsKeepTheInvariant := by
  refine ⟨fun s hs => State.resetOf_inv hs.cfg s.traceDraws, fun s t words hs h => ?_, fun c t h => ?_⟩
  · obtain ⟨hlen, rfl⟩ := loadMemory_next.1 h
    exact hs.withImage hlen
  · obtain ⟨hwf, rfl⟩ := construct_next.1 h
    exact State.built_inv hwf

/-- Settles O12: R351's idempotence, and the values `reset()` writes. -/
theorem resetIsIdempotent : Obligations.ResetIsIdempotent := fun s =>
  ⟨s.hostReset_hostReset, rfl, rfl, rfl, rfl, rfl, rfl, rfl, rfl⟩

/-- Settles O14: N = 0 is the first problem a configuration is checked for, and a core is built exactly where there is
none. -/
theorem constructionStartsInResetOrIsRefused : Obligations.ConstructionStartsInResetOrIsRefused := fun c =>
  ⟨fun h => ⟨State.built c, construct_of_wf h, rfl⟩, fun h => construct_of_problem (if_pos h),
    fun _ h => (construct_next.1 h).1⟩

end Sys2Proof.Proofs
